-- ==== Sys2Proof/Word.lean ====
section
/-!
DEFINITION. The word types of the block (00_scope R8): what the spec reads, adds, shifts or masks as bits.
Counts, addresses while they index memory, screen coordinates and times are plain `Nat` (R10).
-/

namespace Sys2Proof

/-- A byte: a V register, a timer, a memory cell (R8). -/
abbrev Byte := BitVec 8

/-- A 16-bit word: an opcode, `PC`, `I`, a stack entry, the key mask (R8). -/
abbrev Word := BitVec 16

/-- A V register number, a 4-bit field (10_state R21). -/
abbrev RegNum := BitVec 4

/-- A 12-bit absolute address `nnn` (30_encoding R93). -/
abbrev Addr12 := BitVec 12

/-- A host timestamp in milliseconds, `u32` (R8). -/
abbrev Millis := BitVec 32

/-- A tick counter (R8). -/
abbrev TickCount := BitVec 64

end Sys2Proof
end

