-- ==== Sys2Proof/Syntax.lean ====
section
/-!
DEFINITION. The instructions: one constructor per row of spec/opcode_table.json, with the fields of 30_encoding R93.
-/

namespace Sys2Proof

/-- The 35 rows of the opcode table. Each comment gives the pattern and the rule. -/
inductive Instr where
  | cls                                                -- 00E0, R213
  | ret                                                -- 00EE, R121
  | jp (nnn : Addr12)                                  -- 1nnn, R122
  | call (nnn : Addr12)                                -- 2nnn, R123
  | seImm (x : RegNum) (kk : Byte)                     -- 3xkk, R124
  | sneImm (x : RegNum) (kk : Byte)                    -- 4xkk, R125
  | seReg (x y : RegNum)                               -- 5xy0, R126
  | ldImm (x : RegNum) (kk : Byte)                     -- 6xkk, R151
  | addImm (x : RegNum) (kk : Byte)                    -- 7xkk, R152
  | ldReg (x y : RegNum)                               -- 8xy0, R153
  | orReg (x y : RegNum)                               -- 8xy1, R154
  | andReg (x y : RegNum)                              -- 8xy2, R155
  | xorReg (x y : RegNum)                              -- 8xy3, R156
  | addReg (x y : RegNum)                              -- 8xy4, R158
  | subReg (x y : RegNum)                              -- 8xy5, R159
  | shr (x y : RegNum)                                 -- 8xy6, R160
  | subn (x y : RegNum)                                -- 8xy7, R161
  | shl (x y : RegNum)                                 -- 8xyE, R162
  | sneReg (x y : RegNum)                              -- 9xy0, R127
  | ldI (nnn : Addr12)                                 -- Annn, R190
  | jpV0 (nnn : Addr12)                                -- Bnnn, R128
  | rnd (x : RegNum) (kk : Byte)                       -- Cxkk, R163
  | drw (x y : RegNum) (n : BitVec 4)                  -- Dxyn, n ≠ 0, R214
  | drw16 (x y : RegNum)                               -- Dxy0, R215
  | skp (x : RegNum)                                   -- Ex9E, R231
  | sknp (x : RegNum)                                  -- ExA1, R232
  | ldVxDt (x : RegNum)                                -- Fx07, R233
  | ldVxK (x : RegNum)                                 -- Fx0A, R235
  | ldDtVx (x : RegNum)                                -- Fx15, R236
  | ldStVx (x : RegNum)                                -- Fx18, R237
  | addI (x : RegNum)                                  -- Fx1E, R191
  | ldF (x : RegNum)                                   -- Fx29, R192
  | ldB (x : RegNum)                                   -- Fx33, R193
  | ldMemVx (x : RegNum)                               -- Fx55, R196
  | ldVxMem (x : RegNum)                               -- Fx65, R197
  deriving DecidableEq, Repr

end Sys2Proof
end

