-- ==== Sys2Proof/Decode.lean ====
section
/-!
DEFINITION. The decoder of 30_encoding R96, total on words and on bytes, and after it the encoder, written from the
bit layouts of R93, and the opcode table of R98 as mask and match rows.
-/

namespace Sys2Proof

/-- Why a decode gives no instruction. -/
inductive DecodeError where
  /-- R97: the word is selected by no line of R96. -/
  | unknownOpcode (op : Word)
  /-- Fewer than two bytes were given; the fetch of R90 always gives two. -/
  | truncated
  deriving DecidableEq, Repr

/-- `op[15:12]`, the major opcode (R93). -/
def fieldTop (op : Word) : BitVec 4 := op.extractLsb' 12 4

/-- `x = op[11:8]` (R94). -/
def fieldX (op : Word) : RegNum := op.extractLsb' 8 4

/-- `y = op[7:4]` (R94). -/
def fieldY (op : Word) : RegNum := op.extractLsb' 4 4

/-- `n = op[3:0]` (R94). -/
def fieldN (op : Word) : BitVec 4 := op.extractLsb' 0 4

/-- `kk = op[7:0]` (R94). -/
def fieldKK (op : Word) : Byte := op.extractLsb' 0 8

/-- `nnn = op[11:0]` (R94). -/
def fieldNNN (op : Word) : Addr12 := op.extractLsb' 0 12

/-- The lines of R96 with `op[15:12] == 0x8`, told apart by n. -/
def decodeAlu (op : Word) : Except DecodeError Instr :=
  match fieldN op with
  | 0x0#4 => .ok (.ldReg (fieldX op) (fieldY op))
  | 0x1#4 => .ok (.orReg (fieldX op) (fieldY op))
  | 0x2#4 => .ok (.andReg (fieldX op) (fieldY op))
  | 0x3#4 => .ok (.xorReg (fieldX op) (fieldY op))
  | 0x4#4 => .ok (.addReg (fieldX op) (fieldY op))
  | 0x5#4 => .ok (.subReg (fieldX op) (fieldY op))
  | 0x6#4 => .ok (.shr (fieldX op) (fieldY op))
  | 0x7#4 => .ok (.subn (fieldX op) (fieldY op))
  | 0xE#4 => .ok (.shl (fieldX op) (fieldY op))
  | _ => .error (.unknownOpcode op)

/-- The lines of R96 with `op[15:12] == 0xF`, told apart by kk. -/
def decodeMisc (op : Word) : Except DecodeError Instr :=
  match fieldKK op with
  | 0x07#8 => .ok (.ldVxDt (fieldX op))
  | 0x0A#8 => .ok (.ldVxK (fieldX op))
  | 0x15#8 => .ok (.ldDtVx (fieldX op))
  | 0x18#8 => .ok (.ldStVx (fieldX op))
  | 0x1E#8 => .ok (.addI (fieldX op))
  | 0x29#8 => .ok (.ldF (fieldX op))
  | 0x33#8 => .ok (.ldB (fieldX op))
  | 0x55#8 => .ok (.ldMemVx (fieldX op))
  | 0x65#8 => .ok (.ldVxMem (fieldX op))
  | _ => .error (.unknownOpcode op)

/-- `Decode(op)` of R96: a total function; a word no line selects is refused by name (R97). -/
def decode (op : Word) : Except DecodeError Instr :=
  match fieldTop op with
  | 0x0#4 =>
    if op = 0x00E0#16 then .ok .cls
    else if op = 0x00EE#16 then .ok .ret
    else .error (.unknownOpcode op)
  | 0x1#4 => .ok (.jp (fieldNNN op))
  | 0x2#4 => .ok (.call (fieldNNN op))
  | 0x3#4 => .ok (.seImm (fieldX op) (fieldKK op))
  | 0x4#4 => .ok (.sneImm (fieldX op) (fieldKK op))
  | 0x5#4 => if fieldN op = 0#4 then .ok (.seReg (fieldX op) (fieldY op)) else .error (.unknownOpcode op)
  | 0x6#4 => .ok (.ldImm (fieldX op) (fieldKK op))
  | 0x7#4 => .ok (.addImm (fieldX op) (fieldKK op))
  | 0x8#4 => decodeAlu op
  | 0x9#4 => if fieldN op = 0#4 then .ok (.sneReg (fieldX op) (fieldY op)) else .error (.unknownOpcode op)
  | 0xA#4 => .ok (.ldI (fieldNNN op))
  | 0xB#4 => .ok (.jpV0 (fieldNNN op))
  | 0xC#4 => .ok (.rnd (fieldX op) (fieldKK op))
  | 0xD#4 =>
    if fieldN op = 0#4 then .ok (.drw16 (fieldX op) (fieldY op))
    else .ok (.drw (fieldX op) (fieldY op) (fieldN op))
  | 0xE#4 =>
    if fieldKK op = 0x9E#8 then .ok (.skp (fieldX op))
    else if fieldKK op = 0xA1#8 then .ok (.sknp (fieldX op))
    else .error (.unknownOpcode op)
  | 0xF#4 => decodeMisc op
  -- not reached: the sixteen values of a nibble are all named above
  | _ => .error (.unknownOpcode op)

/-- `MEM[PC] ++ MEM[PC+1]`: the high byte at the lower address (R63, R90). -/
def wordOfBytes (hi lo : Byte) : Word := hi ++ lo

/-- The decoder on the bytes as memory holds them; bytes after the first two belong to the next instruction (R100). -/
def decodeBytes : List Byte → Except DecodeError Instr
  | hi :: lo :: _ => decode (wordOfBytes hi lo)
  | [_] => .error .truncated
  | [] => .error .truncated

/-- The word of an instruction, from the bit layouts of R93. -/
def encode : Instr → Word
  | .cls => 0x00E0#16
  | .ret => 0x00EE#16
  | .jp nnn => 0x1#4 ++ nnn
  | .call nnn => 0x2#4 ++ nnn
  | .seImm x kk => 0x3#4 ++ x ++ kk
  | .sneImm x kk => 0x4#4 ++ x ++ kk
  | .seReg x y => 0x5#4 ++ x ++ y ++ 0x0#4
  | .ldImm x kk => 0x6#4 ++ x ++ kk
  | .addImm x kk => 0x7#4 ++ x ++ kk
  | .ldReg x y => 0x8#4 ++ x ++ y ++ 0x0#4
  | .orReg x y => 0x8#4 ++ x ++ y ++ 0x1#4
  | .andReg x y => 0x8#4 ++ x ++ y ++ 0x2#4
  | .xorReg x y => 0x8#4 ++ x ++ y ++ 0x3#4
  | .addReg x y => 0x8#4 ++ x ++ y ++ 0x4#4
  | .subReg x y => 0x8#4 ++ x ++ y ++ 0x5#4
  | .shr x y => 0x8#4 ++ x ++ y ++ 0x6#4
  | .subn x y => 0x8#4 ++ x ++ y ++ 0x7#4
  | .shl x y => 0x8#4 ++ x ++ y ++ 0xE#4
  | .sneReg x y => 0x9#4 ++ x ++ y ++ 0x0#4
  | .ldI nnn => 0xA#4 ++ nnn
  | .jpV0 nnn => 0xB#4 ++ nnn
  | .rnd x kk => 0xC#4 ++ x ++ kk
  | .drw x y n => 0xD#4 ++ x ++ y ++ n
  | .drw16 x y => 0xD#4 ++ x ++ y ++ 0x0#4
  | .skp x => 0xE#4 ++ x ++ 0x9E#8
  | .sknp x => 0xE#4 ++ x ++ 0xA1#8
  | .ldVxDt x => 0xF#4 ++ x ++ 0x07#8
  | .ldVxK x => 0xF#4 ++ x ++ 0x0A#8
  | .ldDtVx x => 0xF#4 ++ x ++ 0x15#8
  | .ldStVx x => 0xF#4 ++ x ++ 0x18#8
  | .addI x => 0xF#4 ++ x ++ 0x1E#8
  | .ldF x => 0xF#4 ++ x ++ 0x29#8
  | .ldB x => 0xF#4 ++ x ++ 0x33#8
  | .ldMemVx x => 0xF#4 ++ x ++ 0x55#8
  | .ldVxMem x => 0xF#4 ++ x ++ 0x65#8

/-- The instruction's two bytes, high byte first (R63). -/
def encodeBytes (i : Instr) : List Byte :=
  [(encode i).extractLsb' 8 8, (encode i).extractLsb' 0 8]

/-- A row of spec/opcode_table.json: its mnemonic, its match and mask, and whether it carries the constraint "n != 0". -/
structure OpcodeRow where
  mnemonic : String
  pattern  : Word
  mask     : Word
  nNotZero : Bool
  deriving DecidableEq, Repr

/-- The rows up to `9xy0`. -/
def opcodeRowsLow : List OpcodeRow :=
  [ ⟨"CLS", 0x00E0, 0xFFFF, false⟩, ⟨"RET", 0x00EE, 0xFFFF, false⟩,
    ⟨"JP_nnn", 0x1000, 0xF000, false⟩, ⟨"CALL_nnn", 0x2000, 0xF000, false⟩,
    ⟨"SE_Vx__kk", 0x3000, 0xF000, false⟩, ⟨"SNE_Vx__kk", 0x4000, 0xF000, false⟩,
    ⟨"SE_Vx__Vy", 0x5000, 0xF00F, false⟩, ⟨"LD_Vx__kk", 0x6000, 0xF000, false⟩,
    ⟨"ADD_Vx__kk", 0x7000, 0xF000, false⟩, ⟨"LD_Vx__Vy", 0x8000, 0xF00F, false⟩,
    ⟨"OR_Vx__Vy", 0x8001, 0xF00F, false⟩, ⟨"AND_Vx__Vy", 0x8002, 0xF00F, false⟩,
    ⟨"XOR_Vx__Vy", 0x8003, 0xF00F, false⟩, ⟨"ADD_Vx__Vy", 0x8004, 0xF00F, false⟩,
    ⟨"SUB_Vx__Vy", 0x8005, 0xF00F, false⟩, ⟨"SHR_Vx__Vy", 0x8006, 0xF00F, false⟩,
    ⟨"SUBN_Vx__Vy", 0x8007, 0xF00F, false⟩, ⟨"SHL_Vx__Vy", 0x800E, 0xF00F, false⟩,
    ⟨"SNE_Vx__Vy", 0x9000, 0xF00F, false⟩ ]

/-- The rows from `Annn` on. -/
def opcodeRowsHigh : List OpcodeRow :=
  [ ⟨"LD_I__nnn", 0xA000, 0xF000, false⟩, ⟨"JP_V0__nnn", 0xB000, 0xF000, false⟩,
    ⟨"RND_Vx__kk", 0xC000, 0xF000, false⟩, ⟨"DRW_Vx__Vy__n", 0xD000, 0xF000, true⟩,
    ⟨"DRW_Vx__Vy__0", 0xD000, 0xF00F, false⟩, ⟨"SKP_Vx", 0xE09E, 0xF0FF, false⟩,
    ⟨"SKNP_Vx", 0xE0A1, 0xF0FF, false⟩, ⟨"LD_Vx__DT", 0xF007, 0xF0FF, false⟩,
    ⟨"LD_Vx__K", 0xF00A, 0xF0FF, false⟩, ⟨"LD_DT__Vx", 0xF015, 0xF0FF, false⟩,
    ⟨"LD_ST__Vx", 0xF018, 0xF0FF, false⟩, ⟨"ADD_I__Vx", 0xF01E, 0xF0FF, false⟩,
    ⟨"LD_F__Vx", 0xF029, 0xF0FF, false⟩, ⟨"LD_B__Vx", 0xF033, 0xF0FF, false⟩,
    ⟨"LD__I___Vx", 0xF055, 0xF0FF, false⟩, ⟨"LD_Vx___I", 0xF065, 0xF0FF, false⟩ ]

/-- spec/opcode_table.json, in its order. -/
def opcodeRows : List OpcodeRow := opcodeRowsLow ++ opcodeRowsHigh

/-- R98: "A word matches a row when `(op & mask) == match`, and the row's `constraint` holds if it has one." -/
def OpcodeRow.hits (r : OpcodeRow) (op : Word) : Bool :=
  (op &&& r.mask == r.pattern) && (!r.nNotZero || fieldN op != 0#4)

/-- The mnemonic of an instruction, as spec/opcode_table.json spells it. -/
def Instr.mnemonic : Instr → String
  | .cls => "CLS"
  | .ret => "RET"
  | .jp _ => "JP_nnn"
  | .call _ => "CALL_nnn"
  | .seImm _ _ => "SE_Vx__kk"
  | .sneImm _ _ => "SNE_Vx__kk"
  | .seReg _ _ => "SE_Vx__Vy"
  | .ldImm _ _ => "LD_Vx__kk"
  | .addImm _ _ => "ADD_Vx__kk"
  | .ldReg _ _ => "LD_Vx__Vy"
  | .orReg _ _ => "OR_Vx__Vy"
  | .andReg _ _ => "AND_Vx__Vy"
  | .xorReg _ _ => "XOR_Vx__Vy"
  | .addReg _ _ => "ADD_Vx__Vy"
  | .subReg _ _ => "SUB_Vx__Vy"
  | .shr _ _ => "SHR_Vx__Vy"
  | .subn _ _ => "SUBN_Vx__Vy"
  | .shl _ _ => "SHL_Vx__Vy"
  | .sneReg _ _ => "SNE_Vx__Vy"
  | .ldI _ => "LD_I__nnn"
  | .jpV0 _ => "JP_V0__nnn"
  | .rnd _ _ => "RND_Vx__kk"
  | .drw _ _ _ => "DRW_Vx__Vy__n"
  | .drw16 _ _ => "DRW_Vx__Vy__0"
  | .skp _ => "SKP_Vx"
  | .sknp _ => "SKNP_Vx"
  | .ldVxDt _ => "LD_Vx__DT"
  | .ldVxK _ => "LD_Vx__K"
  | .ldDtVx _ => "LD_DT__Vx"
  | .ldStVx _ => "LD_ST__Vx"
  | .addI _ => "ADD_I__Vx"
  | .ldF _ => "LD_F__Vx"
  | .ldB _ => "LD_B__Vx"
  | .ldMemVx _ => "LD__I___Vx"
  | .ldVxMem _ => "LD_Vx___I"

/-- The word a table row's bits stand for: the bits from nbits up, and all above the one 16-bit word, are 0. -/
def tableWord (nbits w : Nat) : Word := BitVec.ofNat 16 (w % 2 ^ nbits)

/-- The host's view of the decoder: the word's two bytes laid out as memory holds them, high byte first (R63). -/
def decodeTableWord (nbits w : Nat) : Option Instr :=
  (decodeBytes [(tableWord nbits w).extractLsb' 8 8, (tableWord nbits w).extractLsb' 0 8]).toOption

end Sys2Proof
end

