-- ==== Sys2Proof/Config.lean ====
section
/-!
DEFINITION. The parameters the spec lets an implementation choose (00_scope R7), their defaults, and the one free
value, the random byte (R14). The parameters are plain data so that a state can carry them (log 4).
-/

namespace Sys2Proof

/-- `DEADLINE_MODE`: how a clock's k-th deadline is computed (45_scheduler R252, decision D19). -/
inductive DeadlineMode where
  | integerPeriod
  | exactRatio
  deriving DecidableEq, Repr

/-- An active resolution: the type of `RES` and of the parameter `SCREEN_MODE` (10_state R30). -/
inductive Resolution where
  | lo
  | hi
  deriving DecidableEq, Repr

/-- `VF_ORDER`: which write wins in `8xy4..8xyE` when x = F (41_alu R157, decision D5). -/
inductive VfOrder where
  | resultLast
  | flagLast
  deriving DecidableEq, Repr

/-- `SUB_FLAG_RULE`: the flag rule of `8xy5` and `8xy7` (41_alu R165, decision D6). -/
inductive SubFlagRule where
  | document
  | canonical
  deriving DecidableEq, Repr

/-- `ADDR_POLICY`: a data access at an address of 4096 or more (20_memory R64, decision D3). -/
inductive AddrPolicy where
  | fault
  | wrap
  deriving DecidableEq, Repr

/-- The parameters of 00_scope R7 that are not fixed by the source. -/
structure Config where
  stackSize    : Nat                        -- `STACK_SIZE`, 1..255
  cpuHz        : Nat                        -- `CPU_HZ`, 1..1000
  deadlineMode : DeadlineMode
  screenMode   : Resolution
  fontSmall    : Vector Byte 80
  fontLarge    : Option (Vector Byte 160)
  vfOrder      : VfOrder
  subFlagRule  : SubFlagRule
  addrPolicy   : AddrPolicy
  deriving DecidableEq, Repr

/-- The ranges of R7: `STACK_SIZE` in 1..255 (D30) and `CPU_HZ` in 1..1000 (D20). -/
def Config.valid (c : Config) : Bool :=
  decide (1 ≤ c.stackSize) && decide (c.stackSize ≤ 255) && decide (1 ≤ c.cpuHz) && decide (c.cpuHz ≤ 1000)

/-- PRESUMED (by the spec itself, log 5): the default small font of 10_state R40, one glyph of 5 bytes a line. -/
def Config.defaultFont : Vector Byte 80 :=
  #v[0xF0, 0x90, 0x90, 0x90, 0xF0,
     0x20, 0x60, 0x20, 0x20, 0x70,
     0xF0, 0x10, 0xF0, 0x80, 0xF0,
     0xF0, 0x10, 0xF0, 0x10, 0xF0,
     0x90, 0x90, 0xF0, 0x10, 0x10,
     0xF0, 0x80, 0xF0, 0x10, 0xF0,
     0xF0, 0x80, 0xF0, 0x90, 0xF0,
     0xF0, 0x10, 0x20, 0x40, 0x40,
     0xF0, 0x90, 0xF0, 0x90, 0xF0,
     0xF0, 0x90, 0xF0, 0x10, 0xF0,
     0xF0, 0x90, 0xF0, 0x90, 0x90,
     0xE0, 0x90, 0xE0, 0x90, 0xE0,
     0xF0, 0x80, 0x80, 0x80, 0xF0,
     0xE0, 0x90, 0x90, 0x90, 0xE0,
     0xF0, 0x80, 0xF0, 0x80, 0xF0,
     0xF0, 0x80, 0xF0, 0x80, 0x80]

/-- The defaults of R7. -/
def Config.default : Config where
  stackSize := 16
  cpuHz := 500
  deadlineMode := .integerPeriod
  screenMode := .lo
  fontSmall := Config.defaultFont
  fontLarge := none
  vfOrder := .resultLast
  subFlagRule := .document
  addrPolicy := .fault

/-- `MEM_SIZE` (R7, fixed). -/
def memSize : Nat := 4096

/-- `PROG_START` (R7, fixed). -/
def progStart : Nat := 0x200

/-- `TIMER_HZ` (R7, fixed). -/
def timerHz : Nat := 60

/-- Storage of the screen, columns (10_state R29). -/
def screenCols : Nat := 128

/-- Storage of the screen, rows (10_state R29). -/
def screenRows : Nat := 64

/-- `RandomByte()` (00_scope R14): the n-th draw of the run. A FREE VALUE: it has no body, so nothing can be proved
about any draw or about two draws together (log 9). -/
opaque Config.randomByte : Nat → Byte

end Sys2Proof
end

