-- ==== Sys2Proof/Machine/State.lean ====
section
/-!
DEFINITION. The state of the block as plain data (10_state R20), the reasons a step can stop, and the state after
power-on (`alloc`, R38, R340).
-/

namespace Sys2Proof.Machine

/-- An executor fault kind, codes 1 to 6 of 60_exceptions R310. These are the spec's faults: they are latched in the
state (`State.fault`) and the machine goes on to the return of `advance` (log 6). -/
inductive FaultKind where
  | unknownOpcode
  | stackOverflow
  | stackUnderflow
  | fetchOutOfRange
  | memoryOutOfRange
  | keyOutOfRange
  deriving DecidableEq, Repr

/-- What a fault records (10_state R36, 60_exceptions R311): `opcode` is `none` when the fetch itself faulted. -/
structure FaultRecord where
  kind   : FaultKind
  pc     : Word
  opcode : Option Word
  deriving DecidableEq, Repr

/-- An error a host command returns (46_host_interface R291): a command error (R310 codes 16 and 17), or the executor
fault `advance` reports. -/
inductive HostError where
  | outOfBoundsWrite
  | notStarted
  | executor (f : FaultRecord)
  deriving DecidableEq, Repr

/-- The host commands (46_host_interface R291). -/
inductive Command where
  | alloc
  | start (nowMs : Millis)
  | writeProgramByte (offset : Nat) (value : Byte)
  | setKeys (bitmask : Word)
  | advance (nowMs : Millis)
  | pixel (x y : Nat)
  | isToneActive
  | cpuRateHz (nowMs : Millis)
  | timerRateHz (nowMs : Millis)
  deriving DecidableEq, Repr

/-- The result of a finished command (R291): nothing, `ok`, an error, a bool or a natural. -/
inductive Reply where
  | nothing
  | ok
  | err (e : HostError)
  | bool (b : Bool)
  | natural (n : Nat)
  deriving DecidableEq, Repr

/-- `MEM`: (address, byte) pairs, addresses strictly rising, no byte 0 listed; an address not listed reads as 0, the
value `alloc` gives it (R38, log 11). -/
abbrev Memory := List Host.Cell

/-- `SCREEN` (R29): row y is entry y, and the pixel at column x of a row is its bit x (log 12). -/
abbrev Screen := Vector (BitVec 128) 64

/-- The machine. The comment beside a field gives the rule that names it. -/
structure State where
  cfg        : Config                  -- the parameters, 00_scope R7; no step changes them (log 4)
  mem        : Memory                  -- `MEM`, R34
  v          : Vector Byte 16          -- `V[0..15]`, R21
  pc         : Word                    -- `PC`, R23
  i          : Word                    -- `I`, R24
  stack      : List Word               -- `STACK[0..STACK_SIZE-1]`, R25
  sp         : Byte                    -- `SP`, R25
  dt         : Byte                    -- `DT`, R26
  st         : Byte                    -- `ST`, R26
  keys       : Word                    -- `KEYS`, R27
  wait       : Option RegNum           -- `WAIT`, R28
  screen     : Screen                  -- `SCREEN`, R29
  res        : Resolution              -- `RES`, R30
  scrollX    : Int                     -- `SCROLL_X`, R31
  scrollY    : Int                     -- `SCROLL_Y`, R31
  epoch      : Millis                  -- `EPOCH`, R32
  cpuTicks   : TickCount               -- `CPU_TICKS`, R33
  timerTicks : TickCount               -- `TIMER_TICKS`, R33
  started    : Bool                    -- `STARTED`, R35
  fault      : Option FaultRecord      -- `FAULT`, R36
  advancing  : Option Millis           -- the model's own: the `advance(now_ms)` in progress (log 1)
  pending    : List Command            -- the model's own: the host's commands still to come (log 2)
  reply      : Option Reply            -- the model's own: the last finished command's result (log 3)
  draws      : Nat                     -- the model's own: how many random bytes were drawn (log 9)
  deriving DecidableEq, Repr

/-- Why the MODEL stops. The spec's own faults are not here: they are latched in `State.fault` (log 6). -/
inductive Fault where
  /-- Raised by `execRet` and `execCall` when `SP` points outside `STACK`. The invariant of R25 excludes it, so no
  reachable state raises it. Safe: nothing is claimed of such a state (log 7). -/
  | stackIndexOutside
  deriving DecidableEq, Repr

/-- Why the model refuses. -/
inductive Refusal where
  /-- An arm of `exec` that has no meaning yet. Safe. -/
  | notModelled (mnemonic : String)
  /-- Raised by `step` when a parameter is outside its range: "A configuration outside the range is refused"
  (92_eei_decisions D20). Safe (log 4). -/
  | badConfig
  /-- Raised by `execDrw` on a term with n = 0, which is not well-formed and which no word decodes to. Safe (log 10). -/
  | malformed
  deriving DecidableEq, Repr

/-- `alloc()` (70_reset_and_hazards R340) with the given parameters: the `alloc` column of R38. -/
def State.alloc (c : Config) : State where
  cfg := c
  mem := []
  v := Vector.replicate 16 0#8
  pc := 0x200#16
  i := 0#16
  stack := List.replicate c.stackSize 0#16
  sp := 0#8
  dt := 0#8
  st := 0#8
  keys := 0#16
  wait := none
  screen := Vector.replicate 64 0#128
  res := c.screenMode
  scrollX := 0
  scrollY := 0
  epoch := 0#32
  cpuTicks := 0#64
  timerTicks := 0#64
  started := false
  fault := none
  advancing := none
  pending := []
  reply := none
  draws := 0

/-- The machine right after power-on, with the default parameters (R38, R340; log 3). -/
def State.reset : State := State.alloc Config.default

end Sys2Proof.Machine
end

