-- ==== Sys2Proof/Machine/Ops.lean ====
section
/-!
DEFINITION. The named operations over memory, registers, the screen and the program counter, and the entry of an
executor fault. Every meaning is written over these.
-/

namespace Sys2Proof.Machine

/-! ### Memory -/

/-- The byte at an address (00_scope R12). An address that is not listed reads as 0, as `alloc` leaves it (R38). -/
def Memory.read : Memory → Nat → Byte
  | [], _ => 0#8
  | (b, x) :: m, a => if a = b then x else Memory.read m a

/-- Write one byte (00_scope R12), keeping the list sorted and free of zero bytes. -/
def Memory.write : Memory → Nat → Byte → Memory
  | [], a, x => if x = 0#8 then [] else [(a, x)]
  | (b, y) :: m, a, x =>
    if a < b then (if x = 0#8 then (b, y) :: m else (a, x) :: (b, y) :: m)
    else if a = b then (if x = 0#8 then m else (a, x) :: m)
    else (b, y) :: Memory.write m a x

/-- Write a sequence of bytes, each at its own address, in order (R62). -/
def Memory.writeAll (m : Memory) : List Host.Cell → Memory
  | [] => m
  | c :: cs => Memory.writeAll (Memory.write m c.1 c.2) cs

/-- The canonical form above a bound: every address is at least `lo`, addresses strictly rise, no byte is 0. -/
def Memory.wfFrom : Nat → Memory → Bool
  | _, [] => true
  | lo, (a, x) :: m => decide (lo ≤ a) && x != 0#8 && Memory.wfFrom (a + 1) m

/-- The canonical form: addresses strictly rising, no zero byte listed, every address below `MEM_SIZE` (R60). -/
def Memory.wf (m : Memory) : Bool := Memory.wfFrom 0 m && m.all (fun c => decide (c.1 < memSize))

/-! ### Registers and the program counter -/

/-- `V[x]` (R11, R21). -/
def State.reg (s : State) (x : RegNum) : Byte := s.v[x.toNat]'x.isLt

/-- `V[x] <- b` (R11, R21). -/
def State.setReg (s : State) (x : RegNum) (b : Byte) : State := { s with v := s.v.set x.toNat b x.isLt }

/-- `PC <- a`. -/
def State.setPc (s : State) (a : Word) : State := { s with pc := a }

/-- The fetch's `PC <- PC + 2`, before the opcode executes (30_encoding R91). -/
def State.fetched (s : State) : State := s.setPc (s.pc + 2#16)

/-- A skip on a condition: a further `PC <- PC + 2` (40_control_flow R120). -/
def State.skipIf (s : State) (c : Bool) : State := if c then s.setPc (s.pc + 2#16) else s

/-- Write bytes to `MEM`. -/
def State.store (s : State) (cells : List Host.Cell) : State := { s with mem := Memory.writeAll s.mem cells }

/-- The opcode at `PC`: two bytes, the high one at the lower address (R90); none when `PC > MEM_SIZE - 2` (R92). -/
def State.fetch (s : State) : Option Word :=
  if s.pc.toNat ≤ memSize - 2 then some (wordOfBytes (s.mem.read s.pc.toNat) (s.mem.read (s.pc.toNat + 1)))
  else none

/-! ### The entry of an executor fault -/

/-- Taking a fault (45_scheduler R262, 60_exceptions R314), on the state BEFORE the fetch increment: nothing of the
instruction is committed, `PC` keeps the opcode's address, and `FAULT` records kind, that address and the opcode (R311).
The return of `advance` follows in the next step, `advanceStep` (log 6). There is no return from a fault but `start` (R315). -/
def State.raise (s : State) (k : FaultKind) (op : Option Word) : State :=
  { s with fault := some { kind := k, pc := s.pc, opcode := op } }

/-- The codes of R310 for the executor faults (decision D18). -/
def faultCode : FaultKind → Nat
  | .unknownOpcode => 1
  | .stackOverflow => 2
  | .stackUnderflow => 3
  | .fetchOutOfRange => 4
  | .memoryOutOfRange => 5
  | .keyOutOfRange => 6

/-- The codes of R310 for what a command returns; an executor fault keeps its own code. -/
def errorCode : HostError → Nat
  | .outOfBoundsWrite => 16
  | .notStarted => 17
  | .executor f => faultCode f.kind

/-! ### The screen -/

/-- `W`, the width of an active resolution (R30). -/
def resWidth : Resolution → Nat
  | .lo => 64
  | .hi => 128

/-- `H`, the height of an active resolution (R30). -/
def resHeight : Resolution → Nat
  | .lo => 32
  | .hi => 64

/-- Row y of the storage; there is none past the last row. -/
def Screen.row (scr : Screen) (y : Nat) : BitVec 128 := scr[y]?.getD 0#128

/-- `SCREEN[x][y]` (R29); false outside the storage. -/
def Screen.pixel (scr : Screen) (x y : Nat) : Bool := (Screen.row scr y).getLsbD x

/-- `SCREEN[x][y] <- SCREEN[x][y] ^ 1`. -/
def Screen.flip (scr : Screen) (x y : Nat) : Screen :=
  scr.setIfInBounds y (Screen.row scr y ^^^ BitVec.twoPow 128 x)

/-- Flip the pixels of a list, in order. -/
def Screen.flipAll (scr : Screen) : List (Nat × Nat) → Screen
  | [] => scr
  | p :: ps => Screen.flipAll (Screen.flip scr p.1 p.2) ps

/-- A screen with every pixel 0. -/
def Screen.blank : Screen := Vector.replicate 64 0#128

end Sys2Proof.Machine
end

