-- ==== Sys2Proof/Machine/Operands.lean ====
section
/-!
DEFINITION. The operand forms of 30_encoding R95: registers, immediates and addresses zero-extended (R94), the one data
addressing mode `I + k` with its range check (42_index_memory R194, R195), the glyph address, the BCD digits, the key number.
-/

namespace Sys2Proof.Machine

/-- `zext_16(nnn)` (R94). -/
def addrOperand (nnn : Addr12) : Word := nnn.setWidth 16

/-- `zext_16(V[x])` (R94). -/
def zextByte (b : Byte) : Word := b.setWidth 16

/-- `u8(e)` (00_scope R10). -/
def u8 (n : Nat) : Byte := BitVec.ofNat 8 n

/-- `InRange(kmax)` (R194): all offsets 0..kmax from `I` are below `MEM_SIZE`. -/
def State.inRange (s : State) (kmax : Nat) : Bool := decide (s.i.toNat + kmax < memSize)

/-- `Check(kmax)` of R194 raises. -/
def State.accessFaults (s : State) (kmax : Nat) : Bool :=
  match s.cfg.addrPolicy with
  | .fault => !s.inRange kmax
  | .wrap => false

/-- `Access(k)` of R194: `I + k`, computed without wrap, taken mod `MEM_SIZE` under `WRAP` (R64). -/
def State.access (s : State) (k : Nat) : Nat :=
  match s.cfg.addrPolicy with
  | .fault => s.i.toNat + k
  | .wrap => (s.i.toNat + k) % memSize

/-- `MemRead(Access(k), 1)`. -/
def State.dataByte (s : State) (k : Nat) : Byte := Memory.read s.mem (s.access k)

/-- An instruction with data addresses `Access(0)..Access(kmax)`: `Check(kmax)` before any write (R194), else the effect. -/
def State.guarded (s : State) (kmax : Nat) (op : Word) (effect : State) : Host.Outcome State Fault Refusal :=
  if s.accessFaults kmax then .next (s.raise .memoryOutOfRange (some op)) else .next effect

/-- The three decimal digits of a byte, hundreds first (R193). -/
def bcdDigits (v : Byte) : List Byte := [u8 (v.toNat / 100), u8 (v.toNat / 10 % 10), u8 (v.toNat % 10)]

/-- Bytes to be stored at `Access(k)`, `Access(k+1)`, ... -/
def State.cellsFrom (s : State) (k : Nat) : List Byte → List Host.Cell
  | [] => []
  | b :: bs => (s.access k, b) :: s.cellsFrom (k + 1) bs

/-- `V[0], ..., V[x]` (R196). -/
def State.regsUpTo (s : State) (x : RegNum) : List Byte :=
  (List.range (x.toNat + 1)).map (fun k => s.reg (BitVec.ofNat 4 k))

/-- `for k in 0..x: V[k] <- MemRead(Access(k), 1)` (R197). -/
def State.loadRegs (s : State) (x : RegNum) : State :=
  { s with v := Vector.ofFn (fun k => if k.val ≤ x.toNat then s.dataByte k.val else s.v[k]) }

/-- `5 * V[x]`, the address of a glyph of the small font, not masked (R192, decision D37). -/
def glyphAddress (b : Byte) : Word := BitVec.ofNat 16 (5 * b.toNat)

/-- `KEYS[k]` (R11, R27). -/
def State.keyPressed (s : State) (k : Nat) : Bool := s.keys.getLsbD k

end Sys2Proof.Machine
end

