-- ==== Sys2Proof/Machine/Flags.lean ====
section
/-!
DEFINITION. The arithmetic of 41_alu with its flags: each operation gives a result byte and a flag from the latched
operands (R150), computed on naturals and reduced modulo 256 at the end, and one operation writes both (R157).
-/

namespace Sys2Proof.Machine

/-- A flag as the byte written to `VF`: 0 or 1. -/
def flagByte (f : Bool) : Byte := if f then 1#8 else 0#8

/-- ADD (R158): `r = u8(a + b)`, `f = a + b > 255`. -/
def addFlagged (a b : Byte) : Byte × Bool := (u8 (a.toNat + b.toNat), decide (a.toNat + b.toNat > 255))

/-- `FLAG_SUB` of R159 under the rule of R165. -/
def subFlag (r : SubFlagRule) (a b : Byte) : Bool :=
  match r with
  | .document => decide (a.toNat > b.toNat)
  | .canonical => decide (a.toNat ≥ b.toNat)

/-- `FLAG_SUBN` of R161 under the rule of R165. -/
def subnFlag (r : SubFlagRule) (a b : Byte) : Bool :=
  match r with
  | .document => decide (a.toNat > b.toNat)
  | .canonical => decide (b.toNat ≥ a.toNat)

/-- SUB (R159): `r = u8(a - b + 256)`. -/
def subFlagged (r : SubFlagRule) (a b : Byte) : Byte × Bool := (u8 (a.toNat + 256 - b.toNat), subFlag r a b)

/-- SUBN (R161): `r = u8(b - a + 256)`. -/
def subnFlagged (r : SubFlagRule) (a b : Byte) : Byte × Bool := (u8 (b.toNat + 256 - a.toNat), subnFlag r a b)

/-- SHR (R160): `r = a div 2`, `f = a mod 2`. -/
def shrFlagged (a : Byte) : Byte × Bool := (u8 (a.toNat / 2), decide (a.toNat % 2 = 1))

/-- SHL (R162): `r = u8(a * 2)`, `f = a div 128`. -/
def shlFlagged (a : Byte) : Byte × Bool := (u8 (a.toNat * 2), decide (a.toNat / 128 = 1))

/-- The two writes of R157 in the order `VF_ORDER` gives. -/
def State.writeFlagged (s : State) (x : RegNum) (rf : Byte × Bool) : State :=
  match s.cfg.vfOrder with
  | .resultLast => (s.setReg 0xF#4 (flagByte rf.2)).setReg x rf.1
  | .flagLast => (s.setReg x rf.1).setReg 0xF#4 (flagByte rf.2)

end Sys2Proof.Machine
end

