-- ==== Sys2Proof/Machine/Alu.lean ====
section
/-!
DEFINITION. 41_alu: register loads, arithmetic, logic, shifts and the random byte. None can fault at execution.
-/

namespace Sys2Proof.Machine

/-- R151. -/
def execLdImm (x : RegNum) (kk : Byte) (s : State) : Host.Outcome State Fault Refusal :=
  .next (s.fetched.setReg x kk)

/-- R152: no flag. -/
def execAddImm (x : RegNum) (kk : Byte) (s : State) : Host.Outcome State Fault Refusal :=
  .next (s.fetched.setReg x (u8 ((s.reg x).toNat + kk.toNat)))

/-- R153. -/
def execLdReg (x y : RegNum) (s : State) : Host.Outcome State Fault Refusal :=
  .next (s.fetched.setReg x (s.reg y))

/-- R154: `VF` is not reset (decision D36). -/
def execOrReg (x y : RegNum) (s : State) : Host.Outcome State Fault Refusal :=
  .next (s.fetched.setReg x (s.reg x ||| s.reg y))

/-- R155. -/
def execAndReg (x y : RegNum) (s : State) : Host.Outcome State Fault Refusal :=
  .next (s.fetched.setReg x (s.reg x &&& s.reg y))

/-- R156. -/
def execXorReg (x y : RegNum) (s : State) : Host.Outcome State Fault Refusal :=
  .next (s.fetched.setReg x (s.reg x ^^^ s.reg y))

/-- R158. -/
def execAddReg (x y : RegNum) (s : State) : Host.Outcome State Fault Refusal :=
  .next (s.fetched.writeFlagged x (addFlagged (s.reg x) (s.reg y)))

/-- R159. -/
def execSubReg (x y : RegNum) (s : State) : Host.Outcome State Fault Refusal :=
  .next (s.fetched.writeFlagged x (subFlagged s.cfg.subFlagRule (s.reg x) (s.reg y)))

/-- R160: the shifted register is `V[x]`; the y field is not read (R99). -/
def execShr (x _y : RegNum) (s : State) : Host.Outcome State Fault Refusal :=
  .next (s.fetched.writeFlagged x (shrFlagged (s.reg x)))

/-- R161. -/
def execSubn (x y : RegNum) (s : State) : Host.Outcome State Fault Refusal :=
  .next (s.fetched.writeFlagged x (subnFlagged s.cfg.subFlagRule (s.reg x) (s.reg y)))

/-- R162: the shifted register is `V[x]`; the y field is not read (R99). -/
def execShl (x _y : RegNum) (s : State) : Host.Outcome State Fault Refusal :=
  .next (s.fetched.writeFlagged x (shlFlagged (s.reg x)))

/-- R163: the draw is the free value of log 9, and the next `RND` takes the next draw. -/
def execRnd (x : RegNum) (kk : Byte) (s : State) : Host.Outcome State Fault Refusal :=
  .next { s.fetched.setReg x (Config.randomByte s.draws &&& kk) with draws := s.draws + 1 }

end Sys2Proof.Machine
end

