-- ==== Sys2Proof/Machine/Control.lean ====
section
/-!
DEFINITION. 40_control_flow: RET, JP, CALL, the skips on registers and immediates, JP V0. A meaning takes the state BEFORE
the fetch increment and does the increment itself (`State.fetched`, R91), so that a raise leaves everything as before the fetch.
-/

namespace Sys2Proof.Machine

/-- R121. The popped entry is not cleared. -/
def execRet (s : State) : Host.Outcome State Fault Refusal :=
  if s.sp = 0#8 then .next (s.raise .stackUnderflow (some (encode .ret)))
  else
    match s.stack[(s.sp - 1#8).toNat]? with
    | some a => .next { s with sp := s.sp - 1#8, pc := a }
    | none => .fault .stackIndexOutside

/-- R122. -/
def execJp (nnn : Addr12) (s : State) : Host.Outcome State Fault Refusal :=
  .next (s.fetched.setPc (addrOperand nnn))

/-- R123. The pushed `PC` is the address of the CALL plus 2. -/
def execCall (nnn : Addr12) (s : State) : Host.Outcome State Fault Refusal :=
  if s.sp.toNat = s.cfg.stackSize then .next (s.raise .stackOverflow (some (encode (.call nnn))))
  else if s.sp.toNat < s.stack.length then
    .next { s with stack := s.stack.set s.sp.toNat s.fetched.pc, sp := s.sp + 1#8, pc := addrOperand nnn }
  else .fault .stackIndexOutside

/-- R124. -/
def execSeImm (x : RegNum) (kk : Byte) (s : State) : Host.Outcome State Fault Refusal :=
  .next (s.fetched.skipIf (s.reg x == kk))

/-- R125. -/
def execSneImm (x : RegNum) (kk : Byte) (s : State) : Host.Outcome State Fault Refusal :=
  .next (s.fetched.skipIf (s.reg x != kk))

/-- R126. -/
def execSeReg (x y : RegNum) (s : State) : Host.Outcome State Fault Refusal :=
  .next (s.fetched.skipIf (s.reg x == s.reg y))

/-- R127. -/
def execSneReg (x y : RegNum) (s : State) : Host.Outcome State Fault Refusal :=
  .next (s.fetched.skipIf (s.reg x != s.reg y))

/-- R128: always `V0`; the sum is not masked. -/
def execJpV0 (nnn : Addr12) (s : State) : Host.Outcome State Fault Refusal :=
  .next (s.fetched.setPc (addrOperand nnn + zextByte (s.reg 0#4)))

end Sys2Proof.Machine
end

