-- ==== Sys2Proof/Machine/Display.lean ====
section
/-!
DEFINITION. 43_display: clearing the screen and drawing sprites by XOR with wraparound and collision.
-/

namespace Sys2Proof.Machine

/-- The columns of one sprite row that are set: column c of a w-bit row is bit w - 1 - c, most significant first (R210, log 14). -/
def rowColumns (w : Nat) (b : BitVec w) : List Nat :=
  (List.range w).filter (fun c => b.getLsbD (w - 1 - c))

/-- Where the set bits of a sprite land: column c and row r at `((px + c) mod W, (py + r) mod H)` (R211), rows counted from r. -/
def spritePixels (res : Resolution) (px py : Nat) (w : Nat) : Nat → List (BitVec w) → List (Nat × Nat)
  | _, [] => []
  | r, b :: bs =>
    (rowColumns w b).map (fun c => ((px + c) % resWidth res, (py + r) % resHeight res))
      ++ spritePixels res px py w (r + 1) bs

/-- R212: some set sprite bit lands on a pixel that was 1 before the draw. -/
def collides (scr : Screen) (ps : List (Nat × Nat)) : Bool := ps.any (fun p => Screen.pixel scr p.1 p.2)

/-- A draw: XOR the pixels (R211), then write `VF` once, after all pixels (R212). -/
def State.draw (s : State) (ps : List (Nat × Nat)) : State :=
  { s with screen := Screen.flipAll s.screen ps }.setReg 0xF#4 (flagByte (collides s.screen ps))

/-- The rows of a normal sprite: row r is the byte at offset r (R210). -/
def State.spriteRows (s : State) (n : Nat) : List (BitVec 8) := (List.range n).map s.dataByte

/-- The rows of a large sprite: row r is the bytes at offsets 2r (left) and 2r + 1 (right) (R210, R215). -/
def State.largeSpriteRows (s : State) : List (BitVec 16) :=
  (List.range 16).map (fun r => wordOfBytes (s.dataByte (2 * r)) (s.dataByte (2 * r + 1)))

/-- R213: clears the whole 128×64 storage; `VF` and `RES` unchanged. -/
def execCls (s : State) : Host.Outcome State Fault Refusal :=
  .next { s.fetched with screen := Screen.blank }

/-- R214. A term with n = 0 is not well-formed: no word decodes to it (log 10). -/
def execDrw (x y : RegNum) (n : BitVec 4) (s : State) : Host.Outcome State Fault Refusal :=
  if n = 0#4 then .refused .malformed
  else
    s.guarded (n.toNat - 1) (encode (.drw x y n))
      (s.fetched.draw (spritePixels s.res (s.reg x).toNat (s.reg y).toNat 8 0 (s.spriteRows n.toNat)))

/-- R215: 16×16 in both resolutions. -/
def execDrw16 (x y : RegNum) (s : State) : Host.Outcome State Fault Refusal :=
  s.guarded 31 (encode (.drw16 x y))
    (s.fetched.draw (spritePixels s.res (s.reg x).toNat (s.reg y).toNat 16 0 s.largeSpriteRows))

end Sys2Proof.Machine
end

