-- ==== Sys2Proof/Machine/Index.lean ====
section
/-!
DEFINITION. 42_index_memory: the index register and the memory transfers. `I` is set by `Annn`, `Fx1E` and `Fx29` only (R195).
-/

namespace Sys2Proof.Machine

/-- R190. -/
def execLdI (nnn : Addr12) (s : State) : Host.Outcome State Fault Refusal :=
  .next { s.fetched with i := addrOperand nnn }

/-- R191: 16-bit wrap, `VF` not written. -/
def execAddI (x : RegNum) (s : State) : Host.Outcome State Fault Refusal :=
  .next { s.fetched with i := s.i + zextByte (s.reg x) }

/-- R192. -/
def execLdF (x : RegNum) (s : State) : Host.Outcome State Fault Refusal :=
  .next { s.fetched with i := glyphAddress (s.reg x) }

/-- R193. -/
def execLdB (x : RegNum) (s : State) : Host.Outcome State Fault Refusal :=
  s.guarded 2 (encode (.ldB x)) (s.fetched.store (s.cellsFrom 0 (bcdDigits (s.reg x))))

/-- R196. -/
def execLdMemVx (x : RegNum) (s : State) : Host.Outcome State Fault Refusal :=
  s.guarded x.toNat (encode (.ldMemVx x)) (s.fetched.store (s.cellsFrom 0 (s.regsUpTo x)))

/-- R197. -/
def execLdVxMem (x : RegNum) (s : State) : Host.Outcome State Fault Refusal :=
  s.guarded x.toNat (encode (.ldVxMem x)) (s.fetched.loadRegs x)

end Sys2Proof.Machine
end

