-- ==== Sys2Proof/Machine/Keys.lean ====
section
/-!
DEFINITION. 44_timers_keys: the key skips, the key wait, and the reads and writes of the timers.
-/

namespace Sys2Proof.Machine

/-- R231; a key number above 15 raises (R230). -/
def execSkp (x : RegNum) (s : State) : Host.Outcome State Fault Refusal :=
  if (s.reg x).toNat > 15 then .next (s.raise .keyOutOfRange (some (encode (.skp x))))
  else .next (s.fetched.skipIf (s.keyPressed (s.reg x).toNat))

/-- R232; a key number above 15 raises (R230). -/
def execSknp (x : RegNum) (s : State) : Host.Outcome State Fault Refusal :=
  if (s.reg x).toNat > 15 then .next (s.raise .keyOutOfRange (some (encode (.sknp x))))
  else .next (s.fetched.skipIf (!s.keyPressed (s.reg x).toNat))

/-- R233. -/
def execLdVxDt (x : RegNum) (s : State) : Host.Outcome State Fault Refusal :=
  .next (s.fetched.setReg x s.dt)

/-- R235: only `WAIT` is set; `V[x]` is written by the resolution of a later `advance` (R256). -/
def execLdVxK (x : RegNum) (s : State) : Host.Outcome State Fault Refusal :=
  .next { s.fetched with wait := some x }

/-- R236. -/
def execLdDtVx (x : RegNum) (s : State) : Host.Outcome State Fault Refusal :=
  .next { s.fetched with dt := s.reg x }

/-- R237. -/
def execLdStVx (x : RegNum) (s : State) : Host.Outcome State Fault Refusal :=
  .next { s.fetched with st := s.reg x }

end Sys2Proof.Machine
end

