-- ==== Sys2Proof/Machine/Scheduler.lean ====
section
/-!
DEFINITION. 45_scheduler: deadlines, the CPU tick, the timer tick, and one iteration of the tick loop of a running `advance`.
-/

namespace Sys2Proof.Machine

/-- `Deadline(k, hz) - EPOCH` (R252), exact on naturals (R253). -/
def deadlineOffset (m : DeadlineMode) (k hz : Nat) : Nat :=
  match m with
  | .integerPeriod => k * (1000 / hz)
  | .exactRatio => k * 1000 / hz

/-- `dc`, the next CPU deadline (R252). -/
def State.cpuDeadline (s : State) : Nat :=
  s.epoch.toNat + deadlineOffset s.cfg.deadlineMode s.cpuTicks.toNat s.cfg.cpuHz

/-- `dt`, the next timer deadline (R252). -/
def State.timerDeadline (s : State) : Nat :=
  s.epoch.toNat + deadlineOffset s.cfg.deadlineMode s.timerTicks.toNat timerHz

/-- What an iteration of the loop does (R258). -/
inductive Due where
  | cpu
  | timer
  | nothing
  deriving DecidableEq, Repr

/-- The selection of R258: the earlier deadline first, the CPU on a tie, nothing at or after `now_ms`. -/
def State.due (s : State) (now : Millis) : Due :=
  if s.cpuDeadline < now.toNat ∧ s.cpuDeadline ≤ s.timerDeadline then .cpu
  else if s.timerDeadline < now.toNat then .timer
  else .nothing

/-- The last value of a tick counter, 2^64 - 1. -/
def lastTick : TickCount := BitVec.allOnes 64

/-- `EPOCH <- now; CPU_TICKS <- 0; TIMER_TICKS <- 0` (R254, R266). -/
def State.reanchor (s : State) (now : Millis) : State :=
  { s with epoch := now, cpuTicks := 0#64, timerTicks := 0#64 }

/-- `CPU_TICKS <- CPU_TICKS + 1` (R261). -/
def State.countCpu (s : State) : State := { s with cpuTicks := s.cpuTicks + 1#64 }

/-- `TIMER_TICKS <- TIMER_TICKS + 1` (R261). -/
def State.countTimer (s : State) : State := { s with timerTicks := s.timerTicks + 1#64 }

/-- A down-counter that stops at 0 (R26). -/
def countDown (b : Byte) : Byte := if b = 0#8 then 0#8 else b - 1#8

/-- The timer tick (R264): both timers, each only if nonzero. -/
def State.timerTick (s : State) : State := { s with dt := countDown s.dt, st := countDown s.st }

/-- A command ends with a result; nothing of an `advance` is in progress after it. -/
def State.finish (s : State) (r : Reply) : State := { s with advancing := none, reply := some r }

/-- R261 and R262: an instruction that completed is counted; one that raised is not. -/
def countIfDone : Host.Outcome State Fault Refusal → Host.Outcome State Fault Refusal
  | .next t => .next (match t.fault with | none => t.countCpu | some _ => t)
  | .fault r => .fault r
  | .refused r => .refused r

/-- `Step()` of 30_encoding R91: fetch, decode, execute, each with its fault, in the order of 60_exceptions R312. -/
def instructionStep (s : State) : Host.Outcome State Fault Refusal :=
  match s.fetch with
  | none => .next (s.raise .fetchOutOfRange none)
  | some op =>
    match decode op with
    | .error _ => .next (s.raise .unknownOpcode (some op))
    | .ok i => exec i s

/-- A CPU tick with its count: an instruction step (R259), or a counted no-op while a key is awaited (R260). -/
def cpuTick (s : State) : Host.Outcome State Fault Refusal :=
  match s.wait with
  | some _ => .next s.countCpu
  | none => countIfDone (instructionStep s)

/-- One iteration of the tick loop of R257, for the `advance(now)` in progress. A fault latched by the tick before ends
the call with that fault (R262); otherwise the selection of R258, with the re-anchoring of R266, or the return `ok` (R263). -/
def advanceStep (now : Millis) (s : State) : Host.Outcome State Fault Refusal :=
  match s.fault with
  | some f => .next (s.finish (.err (.executor f)))
  | none =>
    match s.due now with
    | .cpu => if s.cpuTicks = lastTick then .next (s.reanchor now) else cpuTick s
    | .timer => if s.timerTicks = lastTick then .next (s.reanchor now) else .next s.timerTick.countTimer
    | .nothing => .next (s.finish .ok)

end Sys2Proof.Machine
end

