-- ==== Sys2Proof/Machine/HostCommands.lean ====
section
/-!
DEFINITION. 46_host_interface and 70_reset_and_hazards: the host's commands, and the machine's step over them.
-/

namespace Sys2Proof.Machine

/-- The font bytes `start` loads (R341): `FONT_SMALL` at 0, and `FONT_LARGE`, if given, at 80. -/
def fontCells (c : Config) : List Host.Cell :=
  (List.range 80).map (fun k => (k, c.fontSmall[k]?.getD 0#8))
    ++ match c.fontLarge with
       | none => []
       | some f => (List.range 160).map (fun k => (80 + k, f[k]?.getD 0#8))

/-- `start(now_ms)` (R341): every field of that rule, and no other byte of memory. -/
def State.startRun (s : State) (now : Millis) : State :=
  { s with
    mem := Memory.writeAll s.mem (fontCells s.cfg)
    v := Vector.replicate 16 0#8, i := 0#16, pc := 0x200#16, sp := 0#8
    stack := List.replicate s.cfg.stackSize 0#16
    dt := 0#8, st := 0#8, keys := 0#16, wait := none
    screen := Screen.blank, res := s.cfg.screenMode, scrollX := 0, scrollY := 0
    epoch := now, cpuTicks := 0#64, timerTicks := 0#64
    fault := none, started := true }

/-- `alloc()` (R340) as a command: a new machine under the same parameters. The host's own queue and the source of random
bytes are outside the machine and go on (log 3). -/
def State.allocAgain (s : State) : State :=
  { State.alloc s.cfg with pending := s.pending, draws := s.draws }

/-- Clock skew (R254). -/
def State.skew (s : State) (now : Millis) : State :=
  if now.toNat < s.epoch.toNat then s.reanchor now else s

/-- The least pressed key, scanning 0..15 in order (R256). -/
def lowestKey (keys : Word) : Option Nat := (List.range 16).find? (fun k => keys.getLsbD k)

/-- Key-wait resolution (R256). -/
def State.resolveWait (s : State) : State :=
  match s.wait with
  | none => s
  | some r =>
    match lowestKey s.keys with
    | none => s
    | some k => { s.setReg r (u8 k) with wait := none }

/-- The start of `advance(now)` (R255): admission (R250), clock skew (R254), key-wait resolution (R256); then the tick loop
begins with the next step. -/
def State.beginAdvance (s : State) (now : Millis) : State :=
  if s.started then
    match s.fault with
    | some f => s.finish (.err (.executor f))
    | none => { (s.skew now).resolveWait with advancing := some now, reply := none }
  else s.finish (.err .notStarted)

/-- `write_program_byte(offset, value)` (R292). -/
def State.writeProgramByte (s : State) (offset : Nat) (value : Byte) : State :=
  if progStart + offset ≥ memSize then s.finish (.err .outOfBoundsWrite)
  else (s.store [(progStart + offset, value)]).finish .ok

/-- `pixel(x, y)` (R295), with the scroll offsets ignored (decision D11, log 13). -/
def State.pixelQuery (s : State) (x y : Nat) : Bool :=
  decide (x < resWidth s.res) && decide (y < resHeight s.res) && Screen.pixel s.screen x y

/-- Whole seconds since `EPOCH` (R268, decision D23). -/
def State.elapsedSeconds (s : State) (now : Millis) : Nat :=
  if now.toNat ≥ s.epoch.toNat then (now.toNat - s.epoch.toNat) / 1000 else 0

/-- A rate diagnostic (R268): ticks per whole second, 0 when no second has passed. -/
def State.rateHz (s : State) (ticks : TickCount) (now : Millis) : Nat :=
  if s.elapsedSeconds now = 0 then 0 else ticks.toNat / s.elapsedSeconds now

/-- One host command (R291). All but `advance` finish here. -/
def State.perform (s : State) : Command → State
  | .alloc => s.allocAgain.finish .nothing
  | .start now => (s.startRun now).finish .nothing
  | .writeProgramByte offset value => s.writeProgramByte offset value
  | .setKeys bitmask => { s with keys := bitmask }.finish .nothing
  | .advance now => s.beginAdvance now
  | .pixel x y => s.finish (.bool (s.pixelQuery x y))
  | .isToneActive => s.finish (.bool (decide (s.st.toNat > 0)))
  | .cpuRateHz now => s.finish (.natural (s.rateHz s.cpuTicks now))
  | .timerRateHz now => s.finish (.natural (s.rateHz s.timerTicks now))

/-- The machine's step (log 1): an iteration of the `advance` in progress; otherwise the next host command (R290); otherwise
nothing, for "between `advance` calls the block does nothing at all" (R324). A configuration out of range is refused (D20). -/
def machineStep (s : State) : Host.Outcome State Fault Refusal :=
  if s.cfg.valid then
    match s.advancing with
    | some now => advanceStep now s
    | none =>
      match s.pending with
      | [] => .next s
      | c :: rest => .next ({ s with pending := rest }.perform c)
  else .refused .badConfig

/-- The state in which the very next step fetches at `PC` and runs the given word (log 2): the word stored there, high byte
first, and what it takes for a CPU tick to come next, as after `start(0)` and the beginning of `advance(1)`: parameters in
range, both clocks at their first tick, no key awaited, no fault. A `PC` no fetch can use becomes 0x200. -/
def State.placeWord (s : State) (op : Word) : State :=
  let a : Word := if s.pc.toNat ≤ memSize - 2 then s.pc else 0x200#16
  { s with
    cfg := if s.cfg.valid then s.cfg else Config.default
    mem := Memory.writeAll s.mem [(a.toNat, op.extractLsb' 8 8), (a.toNat + 1, op.extractLsb' 0 8)]
    pc := a, wait := none, epoch := 0#32, cpuTicks := 0#64, timerTicks := 0#64, started := true, fault := none
    advancing := some 1#32 }

end Sys2Proof.Machine
end

