-- ==== Sys2Proof/Machine/Step.lean ====
section
/-!
DEFINITION. The machine's step and the host's way to place an instruction; both only call definitions of this folder.
-/

namespace Sys2Proof.Machine

/-- One step of the machine (see `machineStep`). -/
def step (s : State) : Host.Outcome State Fault Refusal := machineStep s

/-- The state whose next step fetches and runs the table word w (see `State.placeWord`, log 2). -/
def State.withFetchWord (s : State) (nbits w : Nat) : State := s.placeWord (tableWord nbits w)

end Sys2Proof.Machine
end

