-- ==== Sys2Proof/Safety.lean ====
section
/-!
DEFINITION. What counts as a safe state and a safe run, in the terms the claims use: the invariants of 10_state R42 and
45_scheduler R265, when a tick is due, and the frames in which a claim says what an instruction leaves unchanged.
-/

namespace Sys2Proof.Machine

/-! ### Invariants -/

/-- `MEM` is in its canonical form: sorted, no zero byte listed, nothing past the 4096 bytes of R60. -/
def MemCanonical (s : State) : Prop := Memory.wf s.mem = true

/-- R25: `STACK` has `STACK_SIZE` entries and "`0 <= sp <= STACK_SIZE`". -/
def StackBounded (s : State) : Prop := s.stack.length = s.cfg.stackSize ∧ s.sp.toNat ≤ s.cfg.stackSize

/-- R42: `PC <= 0x10FE`, and every `STACK[k]` is in 0..0x1000. -/
def PcBounded (s : State) : Prop := s.pc.toNat ≤ 0x10FE ∧ ∀ a ∈ s.stack, a.toNat ≤ 0x1000

/-- R29, R30: the pixels outside the active area are 0. -/
def ScreenConfined (s : State) : Prop :=
  ∀ x y, resWidth s.res ≤ x ∨ resHeight s.res ≤ y → Screen.pixel s.screen x y = false

/-- R30, R31: no step but `alloc` and `start` writes `RES`, and nothing writes the scroll offsets. -/
def DisplayConfigured (s : State) : Prop := s.res = s.cfg.screenMode ∧ s.scrollX = 0 ∧ s.scrollY = 0

/-- R265: no counter exceeds `2^32 - 1 - EPOCH`. -/
def CountersBounded (s : State) : Prop :=
  s.epoch.toNat + s.cpuTicks.toNat ≤ 2 ^ 32 - 1 ∧ s.epoch.toNat + s.timerTicks.toNat ≤ 2 ^ 32 - 1

/-- R35, R36, R250: an `advance` runs, and a fault is latched, only after a `start`. -/
def RunStarted (s : State) : Prop := (s.advancing ≠ none → s.started = true) ∧ (s.fault ≠ none → s.started = true)

/-! ### When a tick is due -/

/-- An `advance(now)` is in progress under parameters in range and with no fault latched. -/
def Advancing (s : State) (now : Millis) : Prop :=
  s.cfg.valid = true ∧ s.advancing = some now ∧ s.fault = none

/-- R257, R258: the loop's next tick is a CPU tick. -/
def CpuDue (s : State) (now : Millis) : Prop :=
  Advancing s now ∧ s.cpuDeadline < now.toNat ∧ s.cpuDeadline ≤ s.timerDeadline

/-- R257, R258: the loop's next tick is a timer tick. -/
def TimerDue (s : State) (now : Millis) : Prop :=
  Advancing s now ∧ ¬ (s.cpuDeadline < now.toNat ∧ s.cpuDeadline ≤ s.timerDeadline) ∧ s.timerDeadline < now.toNat

/-- The machine is between two `advance` calls and the host's next command is c. -/
def Commanded (s : State) (c : Command) (rest : List Command) : Prop :=
  s.cfg.valid = true ∧ s.advancing = none ∧ s.pending = c :: rest

/-! ### Frames -/

/-- Every byte of memory reads as before. -/
def SameBytes (s t : State) : Prop := ∀ a, Memory.read t.mem a = Memory.read s.mem a

/-- Every register but those of a set reads as before. -/
def SameRegsBut (s t : State) (p : RegNum → Prop) : Prop := ∀ k, ¬ p k → t.reg k = s.reg k

/-- Nothing but `PC` changed. -/
def OnlyPc (s t : State) : Prop := t = { s with pc := t.pc } ∧ SameBytes s t

/-- Nothing but `V` and `PC` changed. -/
def OnlyRegsPc (s t : State) : Prop := t = { s with v := t.v, pc := t.pc } ∧ SameBytes s t

/-- The state after a fault: nothing changed but `FAULT`, which records kind, `PC` and opcode (R262, R311). -/
def faulted (s : State) (k : FaultKind) (op : Option Word) : State := { s with fault := some ⟨k, s.pc, op⟩ }

/-- `V[x] <- b`, `PC` past the instruction, and nothing else. -/
def WritesReg (s t : State) (x : RegNum) (b : Nat) : Prop :=
  (t.reg x).toNat = b ∧ SameRegsBut s t (fun k => k = x) ∧ t.pc = s.pc + 2#16 ∧ OnlyRegsPc s t

/-- R157: the result r and the flag f are written to `V[x]` and `VF`; for x = 15 the order decides; nothing else. -/
def WritesFlagged (s t : State) (x : RegNum) (r f : Nat) : Prop :=
  (x ≠ 15#4 → (t.reg x).toNat = r ∧ (t.reg 15#4).toNat = f) ∧
  (x = 15#4 → s.cfg.vfOrder = .resultLast → (t.reg 15#4).toNat = r) ∧
  (x = 15#4 → s.cfg.vfOrder = .flagLast → (t.reg 15#4).toNat = f) ∧
  SameRegsBut s t (fun k => k = x ∨ k = 15#4) ∧ t.pc = s.pc + 2#16 ∧ OnlyRegsPc s t

/-- All of an instruction's data addresses, offsets 0..kmax, may be accessed (R64, R194). -/
def DataInRange (s : State) (kmax : Nat) : Prop := s.cfg.addrPolicy = .wrap ∨ s.i.toNat + kmax < memSize

/-- The word n is the instruction i. -/
def WordOf (n : Nat) (i : Instr) : Prop :=
  encode i = BitVec.ofNat 16 n ∧ decode (BitVec.ofNat 16 n) = .ok i ∧ n < 2 ^ 16

/-- R211: a set bit of a sprite of w columns and h rows, drawn at (px, py), lands on the pixel (X, Y); `bit c r` tells
whether the sprite's pixel at column c and row r is set. -/
def Lands (res : Resolution) (px py w h : Nat) (bit : Nat → Nat → Bool) (X Y : Nat) : Prop :=
  ∃ c r, c < w ∧ r < h ∧ bit c r = true ∧ X = (px + c) % resWidth res ∧ Y = (py + r) % resHeight res

/-- R211, R212: the screen is XORed at the pixels a sprite lands on, `VF` is the collision, written after all pixels. -/
def Draws (s t : State) (lands : Nat → Nat → Prop) : Prop :=
  (∀ X Y, lands X Y → Screen.pixel t.screen X Y = !Screen.pixel s.screen X Y) ∧
  (∀ X Y, ¬ lands X Y → Screen.pixel t.screen X Y = Screen.pixel s.screen X Y) ∧
  ((∃ X Y, lands X Y ∧ Screen.pixel s.screen X Y = true) → (t.reg 15#4).toNat = 1) ∧
  ((¬ ∃ X Y, lands X Y ∧ Screen.pixel s.screen X Y = true) → (t.reg 15#4).toNat = 0) ∧
  SameRegsBut s t (fun k => k = 15#4) ∧ t.pc = s.pc + 2#16 ∧
  t = { s with v := t.v, screen := t.screen, pc := t.pc } ∧ SameBytes s t

/-! ### Which words and which instructions -/

/-- The unknown words of R97, as the rule lists them. -/
def UnknownWord (op : Word) : Prop :=
  (op.toNat < 0x1000 ∧ op.toNat ≠ 0x00E0 ∧ op.toNat ≠ 0x00EE) ∨
  ((op.toNat / 4096 = 5 ∨ op.toNat / 4096 = 9) ∧ op.toNat % 16 ≠ 0) ∨
  (op.toNat / 4096 = 8 ∧ op.toNat % 16 ∈ [8, 9, 0xA, 0xB, 0xC, 0xD, 0xF]) ∨
  (op.toNat / 4096 = 0xE ∧ op.toNat % 256 ∉ [0x9E, 0xA1]) ∨
  (op.toNat / 4096 = 0xF ∧ op.toNat % 256 ∉ [0x07, 0x0A, 0x15, 0x18, 0x1E, 0x29, 0x33, 0x55, 0x65])

/-- R21: the V registers an instruction names as its destination. -/
def NamesDestination : Instr → RegNum → Prop
  | .ldImm x _, k | .addImm x _, k | .ldReg x _, k | .orReg x _, k | .andReg x _, k | .xorReg x _, k | .addReg x _, k
  | .subReg x _, k | .shr x _, k | .subn x _, k | .shl x _, k | .rnd x _, k | .ldVxDt x, k => k = x
  | .ldVxMem x, k => k.toNat ≤ x.toNat
  | .cls, _ | .ret, _ | .jp _, _ | .call _, _ | .seImm _ _, _ | .sneImm _ _, _ | .seReg _ _, _ | .sneReg _ _, _
  | .ldI _, _ | .jpV0 _, _ | .drw _ _ _, _ | .drw16 _ _, _ | .skp _, _ | .sknp _, _ | .ldVxK _, _ | .ldDtVx _, _
  | .ldStVx _, _ | .addI _, _ | .ldF _, _ | .ldB _, _ | .ldMemVx _, _ => False

/-- R22: the mnemonics of the instructions that write `VF` as a flag: `8xy4`, `8xy5`, `8xy6`, `8xy7`, `8xyE` and `Dxyn`. -/
def flagWriters : List String :=
  ["ADD_Vx__Vy", "SUB_Vx__Vy", "SHR_Vx__Vy", "SUBN_Vx__Vy", "SHL_Vx__Vy", "DRW_Vx__Vy__n", "DRW_Vx__Vy__0"]

end Sys2Proof.Machine
end

