-- ==== Sys2Proof/Certificates/Slice0/Obligations.lean ====
section
/-!
DEFINITION. The statements for the provers, file by file of spec/. A statement about one instruction has three parts: the
word it is encoded as, the next state `exec` answers with every value the rule gives and the frame, and, where the rule names
a fault, the state after that fault.
-/

open Sys2Proof Sys2Proof.Machine

/-! ### 30_encoding -/

/-- R93, R94, R96: decoding the word, or the two bytes, of a well-formed instruction gives it back. -/
def Obligations.DecodeOfEncode : Prop :=
  ∀ i : Instr, i.wellFormed = true → decode (encode i) = .ok i ∧ decodeBytes (encodeBytes i) = .ok i

/-- R96, R97: a word that decodes is the word of the well-formed instruction it decodes to. -/
def Obligations.EncodeOfDecode : Prop :=
  ∀ (op : Word) (i : Instr), decode op = .ok i → i.wellFormed = true ∧ encode i = op

/-- R96: one word of each family, written out from R93, and the words of vectors E5 to E8 that are none. -/
def Obligations.WordsOfTheSpecDecode : Prop :=
  decode 0x1234#16 = .ok (.jp 0x234#12) ∧ decode 0x3305#16 = .ok (.seImm 3#4 5#8) ∧
  decode 0x8127#16 = .ok (.subn 1#4 2#4) ∧ decode 0x8356#16 = .ok (.shr 3#4 5#4) ∧
  decode 0xB300#16 = .ok (.jpV0 0x300#12) ∧ decode 0xC30F#16 = .ok (.rnd 3#4 0x0F#8) ∧
  decode 0xD125#16 = .ok (.drw 1#4 2#4 5#4) ∧ decode 0xD010#16 = .ok (.drw16 0#4 1#4) ∧
  decode 0xE2A1#16 = .ok (.sknp 2#4) ∧ decode 0xF255#16 = .ok (.ldMemVx 2#4) ∧
  decode 0x0123#16 = .error (.unknownOpcode 0x0123#16) ∧ decode 0x5121#16 = .error (.unknownOpcode 0x5121#16) ∧
  decode 0x8128#16 = .error (.unknownOpcode 0x8128#16) ∧ decode 0xF030#16 = .error (.unknownOpcode 0xF030#16)

/-- R98: the opcode table and the decoder agree on every word, and the only overlapping match and mask pair is DRW, DRW16. -/
def Obligations.OpcodeTableAndDecoderAgree : Prop :=
  (∀ (op : Word) (i : Instr), decode op = .ok i →
    ∃ r, opcodeRows.filter (fun q => q.hits op) = [r] ∧ r.mnemonic = i.mnemonic) ∧
  (∀ (op : Word) (e : DecodeError), decode op = .error e → opcodeRows.filter (fun q => q.hits op) = []) ∧
  (∀ r ∈ opcodeRows, ∀ q ∈ opcodeRows, r ≠ q → ∀ op : Word, op &&& r.mask = r.pattern → op &&& q.mask = q.pattern →
    (r.mnemonic = "DRW_Vx__Vy__n" ∧ q.mnemonic = "DRW_Vx__Vy__0") ∨
    (r.mnemonic = "DRW_Vx__Vy__0" ∧ q.mnemonic = "DRW_Vx__Vy__n"))

/-- R97: the words refused are those the rule lists, and a CPU tick that fetches one faults, recording the address the word was
fetched from and the word. -/
def Obligations.UnknownWordsFault : Prop :=
  (∀ op : Word, decode op = .error (.unknownOpcode op) ↔ UnknownWord op) ∧
  ∀ (s : State) (now : Millis) (op : Word), CpuDue s now → s.wait = none → s.fetch = some op → UnknownWord op →
    step s = .next (faulted s .unknownOpcode (some op))

/-- R90, R91, R259, R261: a CPU tick runs the instruction whose two bytes stand at `PC`, high byte first; around `exec` it only
counts the tick when the instruction completed. -/
def Obligations.StepRunsTheDecodedInstruction : Prop :=
  ∀ (s : State) (now : Millis) (op : Word) (i : Instr), CpuDue s now → s.wait = none → s.pc.toNat ≤ 4094 →
    op.toNat = (Memory.read s.mem s.pc.toNat).toNat * 256 + (Memory.read s.mem (s.pc.toNat + 1)).toNat →
    decode op = .ok i →
    step s =
      match exec i s with
      | .next t => .next (if t.fault = none then { t with cpuTicks := t.cpuTicks + 1#64 } else t)
      | .fault r => .fault r
      | .refused r => .refused r

/-- R92: a fetch with `PC > 4094` faults and records no opcode. -/
def Obligations.FetchPastTheEndFaults : Prop :=
  ∀ (s : State) (now : Millis), CpuDue s now → s.wait = none → 4094 < s.pc.toNat →
    step s = .next (faulted s .fetchOutOfRange none)

/-- R74, R356: a store over the next instruction's bytes is what the next fetch reads. -/
def Obligations.StoresAreSeenByTheNextFetch : Prop :=
  ∀ (s : State) (x : RegNum), MemCanonical s → DataInRange s x.toNat → 1 ≤ x.toNat → s.pc.toNat ≤ 4092 →
    s.access 0 = s.pc.toNat + 2 → s.access 1 = s.pc.toNat + 3 →
    ∃ t op, exec (.ldMemVx x) s = .next t ∧ t.fetch = some op ∧
      op.toNat = (s.reg 0#4).toNat * 256 + (s.reg 1#4).toNat

/-! ### 40_control_flow -/

/-- R122, R128: JP goes to nnn, JP V0 to nnn + V0 without reduction; a target past 4094 faults only at the next fetch. -/
def Obligations.JumpsSetPc : Prop :=
  ∀ (nnn : Addr12) (s : State),
    (WordOf (0x1000 + nnn.toNat) (.jp nnn) ∧ ∃ t, exec (.jp nnn) s = .next t ∧ t.pc.toNat = nnn.toNat ∧ OnlyPc s t ∧
      (nnn = 0xFFF#12 → t.fetch = none)) ∧
    (WordOf (0xB000 + nnn.toNat) (.jpV0 nnn) ∧
      ∃ t, exec (.jpV0 nnn) s = .next t ∧ t.pc.toNat = nnn.toNat + (s.reg 0#4).toNat ∧ OnlyPc s t ∧
        (4094 < nnn.toNat + (s.reg 0#4).toNat → t.fetch = none))

/-- R121: RET pops; with an empty stack it faults; a return target past 4094 faults only at the next fetch. -/
def Obligations.ReturnPopsTheStack : Prop :=
  ∀ s : State, WordOf 0x00EE .ret ∧
    (s.sp.toNat = 0 → exec .ret s = .next (faulted s .stackUnderflow (some 0x00EE#16))) ∧
    (0 < s.sp.toNat → s.sp.toNat ≤ s.stack.length →
      ∃ t, exec .ret s = .next t ∧ t.sp.toNat = s.sp.toNat - 1 ∧ s.stack[t.sp.toNat]? = some t.pc ∧
        t = { s with sp := t.sp, pc := t.pc } ∧ SameBytes s t ∧ (4094 < t.pc.toNat → t.fetch = none))

/-- R123: CALL pushes the address after it; with a full stack it faults. -/
def Obligations.CallPushesTheReturnAddress : Prop :=
  ∀ (nnn : Addr12) (s : State), WordOf (0x2000 + nnn.toNat) (.call nnn) ∧
    (s.sp.toNat = s.cfg.stackSize →
      exec (.call nnn) s = .next (faulted s .stackOverflow (some (BitVec.ofNat 16 (0x2000 + nnn.toNat))))) ∧
    (s.cfg.valid = true → StackBounded s → s.sp.toNat < s.cfg.stackSize →
      ∃ t, exec (.call nnn) s = .next t ∧ t.stack[s.sp.toNat]? = some (s.pc + 2#16) ∧
        (∀ k, k ≠ s.sp.toNat → t.stack[k]? = s.stack[k]?) ∧ t.sp.toNat = s.sp.toNat + 1 ∧ t.pc.toNat = nnn.toNat ∧
        t = { s with stack := t.stack, sp := t.sp, pc := t.pc } ∧ SameBytes s t)

/-- R121, R123: a RET after a CALL comes back to the word after the CALL, from every state that has the stack as the CALL left
it, with the entries below untouched. -/
def Obligations.ReturnUndoesCall : Prop :=
  ∀ (nnn : Addr12) (s : State), s.cfg.valid = true → StackBounded s → s.sp.toNat < s.cfg.stackSize →
    ∃ t, exec (.call nnn) s = .next t ∧
      ∀ r : State, r.stack = t.stack → r.sp = t.sp →
        ∃ u, exec .ret r = .next u ∧ u.pc = s.pc + 2#16 ∧ u.sp = s.sp ∧ ∀ k, k < s.sp.toNat → u.stack[k]? = s.stack[k]?

/-- R124 to R127: the four skips on an immediate and on a register, when they skip and when they do not; another low nibble in
the word of a skip on two registers is no instruction. -/
def Obligations.SkipsTestTheirCondition : Prop :=
  ∀ (x y : RegNum) (kk : Byte) (s : State),
    (WordOf (0x3000 + x.toNat * 256 + kk.toNat) (.seImm x kk) ∧
      ∃ t, exec (.seImm x kk) s = .next t ∧ OnlyPc s t ∧
        (s.reg x = kk → t.pc = s.pc + 4#16) ∧ (s.reg x ≠ kk → t.pc = s.pc + 2#16)) ∧
    (WordOf (0x4000 + x.toNat * 256 + kk.toNat) (.sneImm x kk) ∧
      ∃ t, exec (.sneImm x kk) s = .next t ∧ OnlyPc s t ∧
        (s.reg x ≠ kk → t.pc = s.pc + 4#16) ∧ (s.reg x = kk → t.pc = s.pc + 2#16)) ∧
    (WordOf (0x5000 + x.toNat * 256 + y.toNat * 16) (.seReg x y) ∧
      ∃ t, exec (.seReg x y) s = .next t ∧ OnlyPc s t ∧
        (s.reg x = s.reg y → t.pc = s.pc + 4#16) ∧ (s.reg x ≠ s.reg y → t.pc = s.pc + 2#16)) ∧
    (WordOf (0x9000 + x.toNat * 256 + y.toNat * 16) (.sneReg x y) ∧
      ∃ t, exec (.sneReg x y) s = .next t ∧ OnlyPc s t ∧
        (s.reg x ≠ s.reg y → t.pc = s.pc + 4#16) ∧ (s.reg x = s.reg y → t.pc = s.pc + 2#16)) ∧
    (∀ n : BitVec 4, n ≠ 0#4 →
      decode (0x5#4 ++ x ++ y ++ n) = .error (.unknownOpcode (0x5#4 ++ x ++ y ++ n)) ∧
      decode (0x9#4 ++ x ++ y ++ n) = .error (.unknownOpcode (0x9#4 ++ x ++ y ++ n)))

/-! ### 41_alu -/

/-- R151, R153, and R233 of 44_timers_keys: the loads of one register, from an immediate, a register and the delay timer. -/
def Obligations.LoadsWriteOneRegister : Prop :=
  ∀ (x y : RegNum) (kk : Byte) (s : State),
    (WordOf (0x6000 + x.toNat * 256 + kk.toNat) (.ldImm x kk) ∧
      ∃ t, exec (.ldImm x kk) s = .next t ∧ WritesReg s t x kk.toNat) ∧
    (WordOf (0x8000 + x.toNat * 256 + y.toNat * 16) (.ldReg x y) ∧
      ∃ t, exec (.ldReg x y) s = .next t ∧ WritesReg s t x (s.reg y).toNat) ∧
    (WordOf (0xF007 + x.toNat * 256) (.ldVxDt x) ∧
      ∃ t, exec (.ldVxDt x) s = .next t ∧ WritesReg s t x s.dt.toNat)

/-- R152: ADD of an immediate wraps modulo 256 and touches no flag. -/
def Obligations.AddImmediateWrapsWithoutFlag : Prop :=
  ∀ (x : RegNum) (kk : Byte) (s : State),
    WordOf (0x7000 + x.toNat * 256 + kk.toNat) (.addImm x kk) ∧
    ∃ t, exec (.addImm x kk) s = .next t ∧ WritesReg s t x (((s.reg x).toNat + kk.toNat) % 256)

/-- R154, R155, R156: OR, AND and XOR, bit by bit; `VF` is not reset. -/
def Obligations.LogicWritesOneRegister : Prop :=
  ∀ (x y : RegNum) (s : State),
    (WordOf (0x8001 + x.toNat * 256 + y.toNat * 16) (.orReg x y) ∧
      ∃ t, exec (.orReg x y) s = .next t ∧ WritesReg s t x ((s.reg x).toNat ||| (s.reg y).toNat)) ∧
    (WordOf (0x8002 + x.toNat * 256 + y.toNat * 16) (.andReg x y) ∧
      ∃ t, exec (.andReg x y) s = .next t ∧ WritesReg s t x ((s.reg x).toNat &&& (s.reg y).toNat)) ∧
    (WordOf (0x8003 + x.toNat * 256 + y.toNat * 16) (.xorReg x y) ∧
      ∃ t, exec (.xorReg x y) s = .next t ∧ WritesReg s t x ((s.reg x).toNat ^^^ (s.reg y).toNat))

/-- R158, R157: ADD wraps modulo 256 and sets `VF` on a carry out of bit 7. -/
def Obligations.AddSetsTheCarry : Prop :=
  ∀ (x y : RegNum) (s : State),
    WordOf (0x8004 + x.toNat * 256 + y.toNat * 16) (.addReg x y) ∧
    ∃ t, exec (.addReg x y) s = .next t ∧
      WritesFlagged s t x (((s.reg x).toNat + (s.reg y).toNat) % 256)
        (if (s.reg x).toNat + (s.reg y).toNat > 255 then 1 else 0)

/-- R159, R161, R165, R157: SUB and SUBN wrap modulo 256, with the flag of each flag rule. -/
def Obligations.SubtractionsSetTheFlag : Prop :=
  ∀ (x y : RegNum) (s : State) (f g : Nat),
    (s.cfg.subFlagRule = .document → f = (if (s.reg x).toNat > (s.reg y).toNat then 1 else 0) ∧ g = f) →
    (s.cfg.subFlagRule = .canonical → f = (if (s.reg x).toNat ≥ (s.reg y).toNat then 1 else 0) ∧
      g = (if (s.reg y).toNat ≥ (s.reg x).toNat then 1 else 0)) →
    (WordOf (0x8005 + x.toNat * 256 + y.toNat * 16) (.subReg x y) ∧
      ∃ t, exec (.subReg x y) s = .next t ∧ WritesFlagged s t x (((s.reg x).toNat + 256 - (s.reg y).toNat) % 256) f) ∧
    (WordOf (0x8007 + x.toNat * 256 + y.toNat * 16) (.subn x y) ∧
      ∃ t, exec (.subn x y) s = .next t ∧ WritesFlagged s t x (((s.reg y).toNat + 256 - (s.reg x).toNat) % 256) g)

/-- R160, R162, R157, R99: the shifts of `V[x]` by one, the bit shifted out in `VF`; y is not read. -/
def Obligations.ShiftsSetTheFlag : Prop :=
  ∀ (x y : RegNum) (s : State),
    (WordOf (0x8006 + x.toNat * 256 + y.toNat * 16) (.shr x y) ∧
      ∃ t, exec (.shr x y) s = .next t ∧ WritesFlagged s t x ((s.reg x).toNat / 2) ((s.reg x).toNat % 2)) ∧
    (WordOf (0x800E + x.toNat * 256 + y.toNat * 16) (.shl x y) ∧
      ∃ t, exec (.shl x y) s = .next t ∧ WritesFlagged s t x ((s.reg x).toNat * 2 % 256) ((s.reg x).toNat / 128))

/-- R163, R14: RND writes the draw masked by kk, for every value of the free draw (log 9), and the next draw is another. -/
def Obligations.RandomByteIsMasked : Prop :=
  ∀ (x : RegNum) (kk : Byte) (s : State),
    WordOf (0xC000 + x.toNat * 256 + kk.toNat) (.rnd x kk) ∧
    ∃ t, exec (.rnd x kk) s = .next t ∧ (t.reg x).toNat = (Config.randomByte s.draws).toNat &&& kk.toNat ∧
      SameRegsBut s t (fun k => k = x) ∧ t.pc = s.pc + 2#16 ∧ t.draws = s.draws + 1 ∧
      t = { s with v := t.v, pc := t.pc, draws := t.draws } ∧ SameBytes s t

/-! ### 42_index_memory -/

/-- R194, R195: `Access(k)` under each policy; an address that passed the check is inside memory. -/
def Obligations.DataAddressesComeFromTheIndex : Prop :=
  ∀ (s : State) (k kmax : Nat),
    (s.cfg.addrPolicy = .fault → s.access k = s.i.toNat + k) ∧
    (s.cfg.addrPolicy = .wrap → s.access k = (s.i.toNat + k) % 4096) ∧
    (DataInRange s kmax → k ≤ kmax → s.access k < 4096)

/-- R190, R191, R192: the three writers of `I`. -/
def Obligations.IndexRegisterWrites : Prop :=
  ∀ (nnn : Addr12) (x : RegNum) (s : State),
    (WordOf (0xA000 + nnn.toNat) (.ldI nnn) ∧
      ∃ t, exec (.ldI nnn) s = .next t ∧ t.i.toNat = nnn.toNat ∧ t.pc = s.pc + 2#16 ∧
        t = { s with i := t.i, pc := t.pc } ∧ SameBytes s t) ∧
    (WordOf (0xF01E + x.toNat * 256) (.addI x) ∧
      ∃ t, exec (.addI x) s = .next t ∧ t.i.toNat = (s.i.toNat + (s.reg x).toNat) % 65536 ∧ t.pc = s.pc + 2#16 ∧
        t = { s with i := t.i, pc := t.pc } ∧ SameBytes s t) ∧
    (WordOf (0xF029 + x.toNat * 256) (.ldF x) ∧
      ∃ t, exec (.ldF x) s = .next t ∧ t.i.toNat = 5 * (s.reg x).toNat ∧ t.pc = s.pc + 2#16 ∧
        t = { s with i := t.i, pc := t.pc } ∧ SameBytes s t)

/-- R193: the three decimal digits of `V[x]`, hundreds first, at `Access(0..2)`; past the end it faults and writes nothing. -/
def Obligations.BcdIsStored : Prop :=
  ∀ (x : RegNum) (s : State), MemCanonical s →
    WordOf (0xF033 + x.toNat * 256) (.ldB x) ∧
    (DataInRange s 2 → ∃ t, exec (.ldB x) s = .next t ∧
      (Memory.read t.mem (s.access 0)).toNat = (s.reg x).toNat / 100 ∧
      (Memory.read t.mem (s.access 1)).toNat = (s.reg x).toNat / 10 % 10 ∧
      (Memory.read t.mem (s.access 2)).toNat = (s.reg x).toNat % 10 ∧
      (∀ a, a ≠ s.access 0 → a ≠ s.access 1 → a ≠ s.access 2 → Memory.read t.mem a = Memory.read s.mem a) ∧
      t.pc = s.pc + 2#16 ∧ t = { s with mem := t.mem, pc := t.pc }) ∧
    (¬ DataInRange s 2 →
      exec (.ldB x) s = .next (faulted s .memoryOutOfRange (some (BitVec.ofNat 16 (0xF033 + x.toNat * 256)))))

/-- R196: `V[0..x]` at `Access(0..x)`, `I` unchanged; past the end it faults and writes nothing. -/
def Obligations.RegistersAreStored : Prop :=
  ∀ (x : RegNum) (s : State), MemCanonical s →
    WordOf (0xF055 + x.toNat * 256) (.ldMemVx x) ∧
    (DataInRange s x.toNat → ∃ t, exec (.ldMemVx x) s = .next t ∧
      (∀ k : RegNum, k.toNat ≤ x.toNat → Memory.read t.mem (s.access k.toNat) = s.reg k) ∧
      (∀ a, (∀ k, k ≤ x.toNat → a ≠ s.access k) → Memory.read t.mem a = Memory.read s.mem a) ∧
      t.pc = s.pc + 2#16 ∧ t = { s with mem := t.mem, pc := t.pc }) ∧
    (¬ DataInRange s x.toNat →
      exec (.ldMemVx x) s = .next (faulted s .memoryOutOfRange (some (BitVec.ofNat 16 (0xF055 + x.toNat * 256)))))

/-- R197: `V[0..x]` from `Access(0..x)`, `I` unchanged; past the end it faults and loads nothing. -/
def Obligations.RegistersAreLoaded : Prop :=
  ∀ (x : RegNum) (s : State),
    WordOf (0xF065 + x.toNat * 256) (.ldVxMem x) ∧
    (DataInRange s x.toNat → ∃ t, exec (.ldVxMem x) s = .next t ∧
      (∀ k : RegNum, k.toNat ≤ x.toNat → t.reg k = Memory.read s.mem (s.access k.toNat)) ∧
      SameRegsBut s t (fun k => k.toNat ≤ x.toNat) ∧ t.pc = s.pc + 2#16 ∧ OnlyRegsPc s t) ∧
    (¬ DataInRange s x.toNat →
      exec (.ldVxMem x) s = .next (faulted s .memoryOutOfRange (some (BitVec.ofNat 16 (0xF065 + x.toNat * 256)))))

/-! ### 43_display -/

/-- R213: CLS clears the whole storage and nothing else. -/
def Obligations.ClearScreenClearsEveryPixel : Prop :=
  ∀ s : State, WordOf 0x00E0 .cls ∧
    ∃ t, exec .cls s = .next t ∧ (∀ X Y, Screen.pixel t.screen X Y = false) ∧ t.pc = s.pc + 2#16 ∧
      t = { s with screen := t.screen, pc := t.pc } ∧ SameBytes s t

/-- R214, R210, R211, R212: DRW of an 8-wide sprite of n rows: row r is the byte at `Access(r)`, most significant bit leftmost. -/
def Obligations.SpriteIsDrawn : Prop :=
  ∀ (x y : RegNum) (n : BitVec 4) (s : State), n ≠ 0#4 →
    WordOf (0xD000 + x.toNat * 256 + y.toNat * 16 + n.toNat) (.drw x y n) ∧
    (DataInRange s (n.toNat - 1) → ∃ t, exec (.drw x y n) s = .next t ∧
      Draws s t (Lands s.res (s.reg x).toNat (s.reg y).toNat 8 n.toNat
        (fun c r => (Memory.read s.mem (s.access r)).getLsbD (7 - c)))) ∧
    (¬ DataInRange s (n.toNat - 1) →
      exec (.drw x y n) s =
        .next (faulted s .memoryOutOfRange (some (BitVec.ofNat 16 (0xD000 + x.toNat * 256 + y.toNat * 16 + n.toNat)))))

/-- R215, R210, R211, R212: DRW with n = 0 draws 16×16: row r is the bytes at `Access(2r)` (left) and `Access(2r+1)` (right). -/
def Obligations.LargeSpriteIsDrawn : Prop :=
  ∀ (x y : RegNum) (s : State),
    WordOf (0xD000 + x.toNat * 256 + y.toNat * 16) (.drw16 x y) ∧
    (DataInRange s 31 → ∃ t, exec (.drw16 x y) s = .next t ∧
      Draws s t (Lands s.res (s.reg x).toNat (s.reg y).toNat 16 16
        (fun c r => if c < 8 then (Memory.read s.mem (s.access (2 * r))).getLsbD (7 - c)
          else (Memory.read s.mem (s.access (2 * r + 1))).getLsbD (15 - c)))) ∧
    (¬ DataInRange s 31 →
      exec (.drw16 x y) s =
        .next (faulted s .memoryOutOfRange (some (BitVec.ofNat 16 (0xD000 + x.toNat * 256 + y.toNat * 16)))))

/-- R211, R212 (vector L1-7): drawing the same sprite twice at the same place restores the screen, and the second draw collides
if the first did not and the sprite is not empty. The coordinates are not taken from `VF`, which the first draw overwrites. -/
def Obligations.DrawingTwiceErases : Prop :=
  ∀ (x y : RegNum) (n : BitVec 4) (s : State), n ≠ 0#4 → x ≠ 15#4 → y ≠ 15#4 → DataInRange s (n.toNat - 1) →
    ∃ t u, exec (.drw x y n) s = .next t ∧ exec (.drw x y n) t = .next u ∧ u.screen = s.screen ∧
      ((t.reg 15#4).toNat = 0 → (∃ r, r < n.toNat ∧ Memory.read s.mem (s.access r) ≠ 0#8) → (u.reg 15#4).toNat = 1)

/-! ### 44_timers_keys -/

/-- R230, R231, R232: the key skips; a key number above 15 faults. -/
def Obligations.KeySkipsReadTheKeys : Prop :=
  ∀ (x : RegNum) (s : State),
    WordOf (0xE09E + x.toNat * 256) (.skp x) ∧ WordOf (0xE0A1 + x.toNat * 256) (.sknp x) ∧
    (15 < (s.reg x).toNat →
      exec (.skp x) s = .next (faulted s .keyOutOfRange (some (BitVec.ofNat 16 (0xE09E + x.toNat * 256)))) ∧
      exec (.sknp x) s = .next (faulted s .keyOutOfRange (some (BitVec.ofNat 16 (0xE0A1 + x.toNat * 256))))) ∧
    ((s.reg x).toNat ≤ 15 → ∃ t u, exec (.skp x) s = .next t ∧ exec (.sknp x) s = .next u ∧ OnlyPc s t ∧ OnlyPc s u ∧
      (s.keys.getLsbD (s.reg x).toNat = true → t.pc = s.pc + 4#16 ∧ u.pc = s.pc + 2#16) ∧
      (s.keys.getLsbD (s.reg x).toNat = false → t.pc = s.pc + 2#16 ∧ u.pc = s.pc + 4#16))

/-- R235, R236, R237: LD Vx,K sets `WAIT` and writes no register; LD DT and LD ST set their timers. -/
def Obligations.WaitAndTimersAreSet : Prop :=
  ∀ (x : RegNum) (s : State),
    (WordOf (0xF00A + x.toNat * 256) (.ldVxK x) ∧
      ∃ t, exec (.ldVxK x) s = .next t ∧ t.wait = some x ∧ t.pc = s.pc + 2#16 ∧
        t = { s with wait := t.wait, pc := t.pc } ∧ SameBytes s t) ∧
    (WordOf (0xF015 + x.toNat * 256) (.ldDtVx x) ∧
      ∃ t, exec (.ldDtVx x) s = .next t ∧ t.dt = s.reg x ∧ t.pc = s.pc + 2#16 ∧
        t = { s with dt := t.dt, pc := t.pc } ∧ SameBytes s t) ∧
    (WordOf (0xF018 + x.toNat * 256) (.ldStVx x) ∧
      ∃ t, exec (.ldStVx x) s = .next t ∧ t.st = s.reg x ∧ t.pc = s.pc + 2#16 ∧
        t = { s with st := t.st, pc := t.pc } ∧ SameBytes s t)

/-! ### 10_state: who writes what -/

/-- R21, R22: an instruction changes a V register only if it names it as its destination, or if it is `VF` and the instruction
is one of those the rule lists. -/
def Obligations.RegisterWritersAreTheListed : Prop :=
  ∀ (i : Instr) (s t : State) (k : RegNum), exec i s = .next t → t.reg k ≠ s.reg k →
    NamesDestination i k ∨ (k = 15#4 ∧ i.mnemonic ∈ flagWriters)

/-- R24 to R33, R76: which instructions write each piece of state besides `V` and `PC`; the scheduler's, the host's and the
display's settings are written by none. -/
def Obligations.OtherStateWritersAreTheListed : Prop :=
  ∀ (i : Instr) (s t : State), exec i s = .next t →
    (i.mnemonic ∉ ["LD_B__Vx", "LD__I___Vx"] → SameBytes s t) ∧
    (i.mnemonic ∉ ["LD_I__nnn", "ADD_I__Vx", "LD_F__Vx"] → t.i = s.i) ∧
    (i.mnemonic ≠ "CALL_nnn" → t.stack = s.stack) ∧
    (i.mnemonic ∉ ["CALL_nnn", "RET"] → t.sp = s.sp) ∧
    (i.mnemonic ≠ "LD_DT__Vx" → t.dt = s.dt) ∧
    (i.mnemonic ≠ "LD_ST__Vx" → t.st = s.st) ∧
    (i.mnemonic ≠ "LD_Vx__K" → t.wait = s.wait) ∧
    (i.mnemonic ∉ ["CLS", "DRW_Vx__Vy__n", "DRW_Vx__Vy__0"] → t.screen = s.screen) ∧
    (i.mnemonic ≠ "RND_Vx__kk" → t.draws = s.draws) ∧
    t.keys = s.keys ∧ t.res = s.res ∧ t.scrollX = s.scrollX ∧ t.scrollY = s.scrollY ∧ t.epoch = s.epoch ∧
    t.cpuTicks = s.cpuTicks ∧ t.timerTicks = s.timerTicks ∧ t.started = s.started ∧ t.cfg = s.cfg ∧
    t.advancing = s.advancing ∧ t.pending = s.pending ∧ t.reply = s.reply

/-! ### 45_scheduler -/

/-- R252: the deadline formula of each mode, the default mode and its periods, and the agreement of the two modes for a rate
dividing 1000. R265, which the spec marks as derived: a deadline grows by at least 1 a tick. -/
def Obligations.DeadlinesGrowWithEveryTick : Prop :=
  (∀ s : State, s.cfg.deadlineMode = .integerPeriod →
    s.cpuDeadline = s.epoch.toNat + s.cpuTicks.toNat * (1000 / s.cfg.cpuHz) ∧
    s.timerDeadline = s.epoch.toNat + s.timerTicks.toNat * 16) ∧
  (∀ s : State, s.cfg.deadlineMode = .exactRatio →
    s.cpuDeadline = s.epoch.toNat + s.cpuTicks.toNat * 1000 / s.cfg.cpuHz ∧
    s.timerDeadline = s.epoch.toNat + s.timerTicks.toNat * 1000 / 60) ∧
  (Config.default.deadlineMode = .integerPeriod ∧ 1000 / Config.default.cpuHz = 2) ∧
  (∀ (m : DeadlineMode) (k hz : Nat), 1 ≤ hz → hz ≤ 1000 → deadlineOffset m k hz + 1 ≤ deadlineOffset m (k + 1) hz) ∧
  (∀ k hz : Nat, 1 ≤ hz → hz ∣ 1000 → deadlineOffset .integerPeriod k hz = deadlineOffset .exactRatio k hz)

/-- R267 (b), (c), R361: in the first 1000 ms after `EPOCH` fall 500 CPU deadlines at 500 Hz, and 63 or 60 of the timer. -/
def Obligations.TicksOfTheFirstSecond : Prop :=
  (∀ (m : DeadlineMode) (k : Nat), deadlineOffset m k 500 < 1000 ↔ k < 500) ∧
  (∀ k : Nat, (deadlineOffset .integerPeriod k timerHz < 1000 ↔ k < 63) ∧ (deadlineOffset .exactRatio k timerHz < 1000 ↔ k < 60))

/-- R250: an `advance` before any `start`, or with a fault latched, returns its error and changes nothing of the machine. -/
def Obligations.AdvanceIsRefusedByTheGuards : Prop :=
  ∀ (s : State) (now : Millis) (rest : List Command), Commanded s (.advance now) rest →
    (s.started = false → step s = .next { s with pending := rest, reply := some (.err .notStarted) }) ∧
    (∀ f, s.started = true → s.fault = some f →
      step s = .next { s with pending := rest, reply := some (.err (.executor f)) })

/-- R254, R255, R256: an admitted `advance` corrects the clock skew and resolves the key wait with the least pressed key, and
then its tick loop begins; nothing else changes. That this is a step of its own, after which the call is in progress and has no
result yet, is the model's choice (logs 1 and 3). -/
def Obligations.AdvanceBeginsWithSkewAndKeyWait : Prop :=
  ∀ (s : State) (now : Millis) (rest : List Command), Commanded s (.advance now) rest → s.started = true → s.fault = none →
    ∃ t, step s = .next t ∧ t.advancing = some now ∧ t.pending = rest ∧ t.reply = none ∧
      (now.toNat < s.epoch.toNat → t.epoch = now ∧ t.cpuTicks = 0#64 ∧ t.timerTicks = 0#64) ∧
      (s.epoch.toNat ≤ now.toNat → t.epoch = s.epoch ∧ t.cpuTicks = s.cpuTicks ∧ t.timerTicks = s.timerTicks) ∧
      (s.wait = none ∨ s.keys = 0#16 → t.wait = s.wait ∧ t.v = s.v) ∧
      (∀ r, s.wait = some r → s.keys ≠ 0#16 → t.wait = none ∧
        ∃ k, k < 16 ∧ s.keys.getLsbD k = true ∧ (∀ j, j < k → s.keys.getLsbD j = false) ∧ (t.reg r).toNat = k ∧
          SameRegsBut s t (fun q => q = r)) ∧
      t = { s with v := t.v, wait := t.wait, epoch := t.epoch, cpuTicks := t.cpuTicks, timerTicks := t.timerTicks,
                   advancing := t.advancing, pending := t.pending, reply := t.reply } ∧ SameBytes s t

/-- R254, R270: an `advance` whose time lies before `EPOCH` performs no tick: it returns `ok` in the next step with the clocks
restarted at the new `EPOCH` and everything else as it was, but for the resolution of a key wait (R256). -/
def Obligations.SkewedAdvancePerformsNoTick : Prop :=
  ∀ (s : State) (now : Millis) (rest : List Command), Commanded s (.advance now) rest → s.started = true → s.fault = none →
    now.toNat < s.epoch.toNat →
    ∃ t u, step s = .next t ∧ step t = .next u ∧
      u = { s with v := u.v, wait := u.wait, epoch := now, cpuTicks := 0#64, timerTicks := 0#64, pending := rest,
                   reply := some .ok } ∧
      (s.wait = none ∨ s.keys = 0#16 → u.v = s.v ∧ u.wait = s.wait)

/-- R267 (a): when every due tick was done and no key is awaited, a second `advance` with the same time does nothing. -/
def Obligations.SecondAdvanceDoesNothing : Prop :=
  ∀ (s : State) (now : Millis) (rest : List Command), Commanded s (.advance now) rest → s.started = true → s.fault = none →
    s.wait = none → s.epoch.toNat ≤ now.toNat → now.toNat ≤ s.cpuDeadline → now.toNat ≤ s.timerDeadline →
    ∃ t, step s = .next t ∧ step t = .next { s with pending := rest, reply := some .ok }

/-- R257, R258: ticks come in deadline order, the CPU first on a tie, and the call ends only when nothing is due. -/
def Obligations.TicksComeInDeadlineOrder : Prop :=
  ∀ (s t : State) (now : Millis), Advancing s now → step s = .next t →
    (t.cpuTicks ≠ s.cpuTicks → s.cpuDeadline < now.toNat ∧ s.cpuDeadline ≤ s.timerDeadline) ∧
    (t.timerTicks ≠ s.timerTicks →
      s.timerDeadline < now.toNat ∧ (now.toNat ≤ s.cpuDeadline ∨ s.timerDeadline < s.cpuDeadline)) ∧
    (t.advancing = none → now.toNat ≤ s.cpuDeadline ∧ now.toNat ≤ s.timerDeadline)

/-- R260: while a key is awaited, a CPU tick only counts. -/
def Obligations.WaitingTickOnlyCounts : Prop :=
  ∀ (s : State) (now : Millis) (r : RegNum), CpuDue s now → s.wait = some r →
    step s = .next { s with cpuTicks := s.cpuTicks + 1#64 }

/-- R264, R261: a timer tick counts both timers down, each only if nonzero, whether or not a key is awaited. -/
def Obligations.TimerTickCountsDown : Prop :=
  ∀ (s : State) (now : Millis), TimerDue s now →
    ∃ t, step s = .next t ∧ t.dt.toNat = s.dt.toNat - 1 ∧ t.st.toNat = s.st.toNat - 1 ∧
      t.timerTicks.toNat = s.timerTicks.toNat + 1 ∧ t = { s with dt := t.dt, st := t.st, timerTicks := t.timerTicks }

/-- R262, R311, R314: a CPU tick that faults commits nothing: only `FAULT` changes, and it records the address and the word that
was fetched, or no word when the fetch itself faulted. -/
def Obligations.FaultingTickCommitsNothing : Prop :=
  ∀ (s t : State) (now : Millis), CpuDue s now → s.wait = none → step s = .next t → t.fault ≠ none →
    ∃ k op, t = faulted s k op ∧ op = s.fetch ∧ (op = none ↔ k = .fetchOutOfRange)

/-- R262, R263: with a fault latched the running `advance` returns it; with nothing due it returns `ok`; nothing else changes. -/
def Obligations.AdvanceReturnsItsResult : Prop :=
  ∀ (s : State) (now : Millis), s.cfg.valid = true → s.advancing = some now →
    (∀ f, s.fault = some f → step s = .next { s with advancing := none, reply := some (.err (.executor f)) }) ∧
    (s.fault = none → now.toNat ≤ s.cpuDeadline → now.toNat ≤ s.timerDeadline →
      step s = .next { s with advancing := none, reply := some .ok })

/-- R265, R266: a clock that is due has counted fewer milliseconds than lie between `EPOCH` and `now_ms`, so the re-anchoring in
place of an overflow of its counter never comes; the re-anchoring leaves both deadlines at `now_ms`. -/
def Obligations.ReanchoringIsNeverDue : Prop :=
  ∀ (s : State) (now : Millis), Advancing s now →
    (s.cpuDeadline < now.toNat → s.epoch.toNat + s.cpuTicks.toNat < now.toNat ∧ s.cpuTicks ≠ lastTick) ∧
    (s.timerDeadline < now.toNat → s.epoch.toNat + s.timerTicks.toNat < now.toNat ∧ s.timerTicks ≠ lastTick) ∧
    (s.reanchor now).cpuDeadline = now.toNat ∧ (s.reanchor now).timerDeadline = now.toNat

/-- R265: a running `advance` ends after at most one step a millisecond of each clock still to go, and two more. -/
def Obligations.AdvanceTerminates : Prop :=
  ∀ (s : State) (now : Millis), s.cfg.valid = true → StackBounded s → s.advancing = some now →
    ∃ (n : Nat) (t : State), n ≤ (now.toNat - s.cpuDeadline) + (now.toNat - s.timerDeadline) + 2 ∧
      Host.Core.run core n s = .next t ∧ t.advancing = none

/-- R265: no step takes a counter past `2^32 - 1 - EPOCH`. -/
def Obligations.CountersStayBounded : Prop :=
  ∀ s t : State, CountersBounded s → step s = .next t → CountersBounded t

/-! ### 46_host_interface, 70_reset_and_hazards -/

/-- R340, R38: the state after `alloc`, and the command `alloc`, which gives it anew. That the model's reset is that state under
the default parameters, and that the command keeps the host's queue, the parameters and the count of draws, is the model's choice
(log 3). -/
def Obligations.PowerOnState : Prop :=
  (∀ (c : Config) (s : State), s = State.alloc c →
    (∀ a, Memory.read s.mem a = 0#8) ∧ (∀ k, s.reg k = 0#8) ∧ s.pc = 0x200#16 ∧ s.i = 0#16 ∧
    s.stack = List.replicate c.stackSize 0#16 ∧ s.sp = 0#8 ∧ s.dt = 0#8 ∧ s.st = 0#8 ∧ s.keys = 0#16 ∧ s.wait = none ∧
    (∀ X Y, Screen.pixel s.screen X Y = false) ∧ s.res = c.screenMode ∧ s.scrollX = 0 ∧ s.scrollY = 0 ∧ s.epoch = 0#32 ∧
    s.cpuTicks = 0#64 ∧ s.timerTicks = 0#64 ∧ s.started = false ∧ s.fault = none) ∧
  State.reset = State.alloc Config.default ∧
  ∀ (s : State) (rest : List Command), Commanded s .alloc rest →
    step s = .next { State.alloc s.cfg with pending := rest, reply := some .nothing, draws := s.draws }

/-- R341, R38: every field after `start`; memory changes only where the fonts are loaded. -/
def Obligations.StartBeginsAFreshRun : Prop :=
  ∀ (s : State) (now : Millis) (rest : List Command), Commanded s (.start now) rest → MemCanonical s →
    ∃ t, step s = .next t ∧ (∀ k, t.reg k = 0#8) ∧ t.i = 0#16 ∧ t.pc = 0x200#16 ∧ t.sp = 0#8 ∧
      t.stack = List.replicate s.cfg.stackSize 0#16 ∧ t.dt = 0#8 ∧ t.st = 0#8 ∧ t.keys = 0#16 ∧ t.wait = none ∧
      (∀ X Y, Screen.pixel t.screen X Y = false) ∧ t.res = s.cfg.screenMode ∧ t.scrollX = 0 ∧ t.scrollY = 0 ∧
      (∀ a, ∀ h : a < 80, Memory.read t.mem a = s.cfg.fontSmall[a]) ∧
      (s.cfg.fontLarge = none → ∀ a, 80 ≤ a → Memory.read t.mem a = Memory.read s.mem a) ∧
      (∀ f, s.cfg.fontLarge = some f → (∀ k, ∀ h : k < 160, Memory.read t.mem (80 + k) = f[k]) ∧
        ∀ a, 240 ≤ a → Memory.read t.mem a = Memory.read s.mem a) ∧
      t.epoch = now ∧ t.cpuTicks = 0#64 ∧ t.timerTicks = 0#64 ∧ t.fault = none ∧ t.started = true ∧
      t.cfg = s.cfg ∧ t.advancing = none ∧ t.pending = rest ∧ t.reply = some .nothing ∧ t.draws = s.draws

/-- R292: a program byte is written at 0x200 + offset, or refused past the end, in every state, and no fault is latched. -/
def Obligations.ProgramByteIsWrittenOrRefused : Prop :=
  ∀ (s : State) (offset : Nat) (value : Byte) (rest : List Command), Commanded s (.writeProgramByte offset value) rest →
    (4096 ≤ 0x200 + offset → step s = .next { s with pending := rest, reply := some (.err .outOfBoundsWrite) }) ∧
    (0x200 + offset < 4096 → MemCanonical s →
      ∃ t, step s = .next t ∧ Memory.read t.mem (0x200 + offset) = value ∧
        (∀ a, a ≠ 0x200 + offset → Memory.read t.mem a = Memory.read s.mem a) ∧
        t = { s with mem := t.mem, pending := rest, reply := some .ok })

/-- R293: `set_keys` replaces the whole key state, resolves no wait and changes nothing else. -/
def Obligations.SetKeysReplacesTheMask : Prop :=
  ∀ (s : State) (bitmask : Word) (rest : List Command), Commanded s (.setKeys bitmask) rest →
    step s = .next { s with keys := bitmask, pending := rest, reply := some .nothing }

/-- R295, R296, R268: the queries answer as their rules say and change nothing (the pixel with both scroll offsets 0, the only
reachable values by R31). -/
def Obligations.QueriesChangeNothing : Prop :=
  ∀ (s : State) (c : Command) (rest : List Command), Commanded s c rest →
    (∀ X Y, c = .pixel X Y → s.scrollX = 0 → s.scrollY = 0 → ∃ b, step s = .next { s with pending := rest, reply := some (.bool b) } ∧
      (b = true ↔ X < resWidth s.res ∧ Y < resHeight s.res ∧ Screen.pixel s.screen X Y = true)) ∧
    (c = .isToneActive → ∃ b, step s = .next { s with pending := rest, reply := some (.bool b) } ∧
      (b = true ↔ 0 < s.st.toNat)) ∧
    (∀ now : Millis, c = .cpuRateHz now → ∃ n, step s = .next { s with pending := rest, reply := some (.natural n) } ∧
      (now.toNat < s.epoch.toNat + 1000 → n = 0) ∧
      (s.epoch.toNat + 1000 ≤ now.toNat → n = s.cpuTicks.toNat / ((now.toNat - s.epoch.toNat) / 1000))) ∧
    (∀ now : Millis, c = .timerRateHz now → ∃ n, step s = .next { s with pending := rest, reply := some (.natural n) } ∧
      (now.toNat < s.epoch.toNat + 1000 → n = 0) ∧
      (s.epoch.toNat + 1000 ≤ now.toNat → n = s.timerTicks.toNat / ((now.toNat - s.epoch.toNat) / 1000)))

/-- R290, R27, R353: while an `advance` runs, no host command is taken: the queue, `KEYS`, `RES` and the parameters stay. -/
def Obligations.AdvanceIsNotInterrupted : Prop :=
  ∀ (s t : State) (now : Millis), s.advancing = some now → step s = .next t →
    t.pending = s.pending ∧ t.keys = s.keys ∧ t.res = s.res ∧ t.started = s.started ∧ t.cfg = s.cfg

/-- R36, R315: a latched fault stays until a `start` (or a new machine by `alloc`). -/
def Obligations.OnlyStartClearsAFault : Prop :=
  ∀ (s t : State) (f : FaultRecord), s.fault = some f → step s = .next t →
    t.fault = some f ∨
    (s.advancing = none ∧ ∃ rest, s.pending = .alloc :: rest ∨ ∃ now, s.pending = .start now :: rest)

/-! ### Invariants every step keeps -/

/-- R25, R123, R121 and the completeness of the model: with parameters in range and a bounded stack a step always answers a next
state, and the stack stays bounded and the parameters stay. -/
def Obligations.MachineNeverStops : Prop :=
  ∀ s : State, s.cfg.valid = true → StackBounded s → ∃ t, step s = .next t ∧ StackBounded t ∧ t.cfg = s.cfg

/-- R60, R64: memory keeps its canonical form, with no address past its 4096 bytes. -/
def Obligations.MemoryStaysCanonical : Prop :=
  ∀ s t : State, MemCanonical s → step s = .next t → MemCanonical t

/-- R42: `PC <= 0x10FE` and every stack entry is at most 0x1000. -/
def Obligations.PcStaysBounded : Prop :=
  ∀ s t : State, PcBounded s → step s = .next t → PcBounded t

/-- R29, R30, R31: the pixels outside the active area stay 0, `RES` stays the parameter's, the scroll offsets stay 0. -/
def Obligations.ScreenStaysConfined : Prop :=
  ∀ s t : State, ScreenConfined s → DisplayConfigured s → step s = .next t → ScreenConfined t ∧ DisplayConfigured t

/-- R35, R36, R250: an `advance` runs, and a fault is latched, only after a `start`. -/
def Obligations.RunsOnlyAfterStart : Prop :=
  ∀ s t : State, RunStarted s → step s = .next t → RunStarted t

/-- R38, R42: the reset state meets every invariant above. -/
def Obligations.ResetMeetsTheInvariants : Prop :=
  State.reset.cfg.valid = true ∧ MemCanonical State.reset ∧ StackBounded State.reset ∧ PcBounded State.reset ∧
  ScreenConfined State.reset ∧ DisplayConfigured State.reset ∧ CountersBounded State.reset ∧ RunStarted State.reset
end

