-- ==== Sys2Proof/Laws/State.lean ====
section
/-!
SUPPORT. One lemma per field per named update of State: what the update leaves alone, and what it sets.
-/

namespace Sys2Proof.Machine.Laws

/-! ### `State.setReg` -/

@[simp] theorem setReg_cfg (s : State) (x : RegNum) (b : Byte) : (s.setReg x b).cfg = s.cfg := rfl
@[simp] theorem setReg_mem (s : State) (x : RegNum) (b : Byte) : (s.setReg x b).mem = s.mem := rfl
@[simp] theorem setReg_pc (s : State) (x : RegNum) (b : Byte) : (s.setReg x b).pc = s.pc := rfl
@[simp] theorem setReg_i (s : State) (x : RegNum) (b : Byte) : (s.setReg x b).i = s.i := rfl
@[simp] theorem setReg_stack (s : State) (x : RegNum) (b : Byte) : (s.setReg x b).stack = s.stack := rfl
@[simp] theorem setReg_sp (s : State) (x : RegNum) (b : Byte) : (s.setReg x b).sp = s.sp := rfl
@[simp] theorem setReg_dt (s : State) (x : RegNum) (b : Byte) : (s.setReg x b).dt = s.dt := rfl
@[simp] theorem setReg_st (s : State) (x : RegNum) (b : Byte) : (s.setReg x b).st = s.st := rfl
@[simp] theorem setReg_keys (s : State) (x : RegNum) (b : Byte) : (s.setReg x b).keys = s.keys := rfl
@[simp] theorem setReg_wait (s : State) (x : RegNum) (b : Byte) : (s.setReg x b).wait = s.wait := rfl
@[simp] theorem setReg_screen (s : State) (x : RegNum) (b : Byte) : (s.setReg x b).screen = s.screen := rfl
@[simp] theorem setReg_res (s : State) (x : RegNum) (b : Byte) : (s.setReg x b).res = s.res := rfl
@[simp] theorem setReg_scrollX (s : State) (x : RegNum) (b : Byte) : (s.setReg x b).scrollX = s.scrollX := rfl
@[simp] theorem setReg_scrollY (s : State) (x : RegNum) (b : Byte) : (s.setReg x b).scrollY = s.scrollY := rfl
@[simp] theorem setReg_epoch (s : State) (x : RegNum) (b : Byte) : (s.setReg x b).epoch = s.epoch := rfl
@[simp] theorem setReg_cpuTicks (s : State) (x : RegNum) (b : Byte) : (s.setReg x b).cpuTicks = s.cpuTicks := rfl
@[simp] theorem setReg_timerTicks (s : State) (x : RegNum) (b : Byte) : (s.setReg x b).timerTicks = s.timerTicks := rfl
@[simp] theorem setReg_started (s : State) (x : RegNum) (b : Byte) : (s.setReg x b).started = s.started := rfl
@[simp] theorem setReg_fault (s : State) (x : RegNum) (b : Byte) : (s.setReg x b).fault = s.fault := rfl
@[simp] theorem setReg_advancing (s : State) (x : RegNum) (b : Byte) : (s.setReg x b).advancing = s.advancing := rfl
@[simp] theorem setReg_pending (s : State) (x : RegNum) (b : Byte) : (s.setReg x b).pending = s.pending := rfl
@[simp] theorem setReg_reply (s : State) (x : RegNum) (b : Byte) : (s.setReg x b).reply = s.reply := rfl
@[simp] theorem setReg_draws (s : State) (x : RegNum) (b : Byte) : (s.setReg x b).draws = s.draws := rfl

/-! ### `State.setPc` -/

@[simp] theorem setPc_cfg (s : State) (a : Word) : (s.setPc a).cfg = s.cfg := rfl
@[simp] theorem setPc_mem (s : State) (a : Word) : (s.setPc a).mem = s.mem := rfl
@[simp] theorem setPc_v (s : State) (a : Word) : (s.setPc a).v = s.v := rfl
@[simp] theorem setPc_i (s : State) (a : Word) : (s.setPc a).i = s.i := rfl
@[simp] theorem setPc_stack (s : State) (a : Word) : (s.setPc a).stack = s.stack := rfl
@[simp] theorem setPc_sp (s : State) (a : Word) : (s.setPc a).sp = s.sp := rfl
@[simp] theorem setPc_dt (s : State) (a : Word) : (s.setPc a).dt = s.dt := rfl
@[simp] theorem setPc_st (s : State) (a : Word) : (s.setPc a).st = s.st := rfl
@[simp] theorem setPc_keys (s : State) (a : Word) : (s.setPc a).keys = s.keys := rfl
@[simp] theorem setPc_wait (s : State) (a : Word) : (s.setPc a).wait = s.wait := rfl
@[simp] theorem setPc_screen (s : State) (a : Word) : (s.setPc a).screen = s.screen := rfl
@[simp] theorem setPc_res (s : State) (a : Word) : (s.setPc a).res = s.res := rfl
@[simp] theorem setPc_scrollX (s : State) (a : Word) : (s.setPc a).scrollX = s.scrollX := rfl
@[simp] theorem setPc_scrollY (s : State) (a : Word) : (s.setPc a).scrollY = s.scrollY := rfl
@[simp] theorem setPc_epoch (s : State) (a : Word) : (s.setPc a).epoch = s.epoch := rfl
@[simp] theorem setPc_cpuTicks (s : State) (a : Word) : (s.setPc a).cpuTicks = s.cpuTicks := rfl
@[simp] theorem setPc_timerTicks (s : State) (a : Word) : (s.setPc a).timerTicks = s.timerTicks := rfl
@[simp] theorem setPc_started (s : State) (a : Word) : (s.setPc a).started = s.started := rfl
@[simp] theorem setPc_fault (s : State) (a : Word) : (s.setPc a).fault = s.fault := rfl
@[simp] theorem setPc_advancing (s : State) (a : Word) : (s.setPc a).advancing = s.advancing := rfl
@[simp] theorem setPc_pending (s : State) (a : Word) : (s.setPc a).pending = s.pending := rfl
@[simp] theorem setPc_reply (s : State) (a : Word) : (s.setPc a).reply = s.reply := rfl
@[simp] theorem setPc_draws (s : State) (a : Word) : (s.setPc a).draws = s.draws := rfl
@[simp] theorem setPc_reg (s : State) (a : Word) (k : RegNum) : (s.setPc a).reg k = s.reg k := rfl

/-! ### `State.fetched` -/

@[simp] theorem fetched_cfg (s : State) : (s.fetched).cfg = s.cfg := rfl
@[simp] theorem fetched_mem (s : State) : (s.fetched).mem = s.mem := rfl
@[simp] theorem fetched_v (s : State) : (s.fetched).v = s.v := rfl
@[simp] theorem fetched_i (s : State) : (s.fetched).i = s.i := rfl
@[simp] theorem fetched_stack (s : State) : (s.fetched).stack = s.stack := rfl
@[simp] theorem fetched_sp (s : State) : (s.fetched).sp = s.sp := rfl
@[simp] theorem fetched_dt (s : State) : (s.fetched).dt = s.dt := rfl
@[simp] theorem fetched_st (s : State) : (s.fetched).st = s.st := rfl
@[simp] theorem fetched_keys (s : State) : (s.fetched).keys = s.keys := rfl
@[simp] theorem fetched_wait (s : State) : (s.fetched).wait = s.wait := rfl
@[simp] theorem fetched_screen (s : State) : (s.fetched).screen = s.screen := rfl
@[simp] theorem fetched_res (s : State) : (s.fetched).res = s.res := rfl
@[simp] theorem fetched_scrollX (s : State) : (s.fetched).scrollX = s.scrollX := rfl
@[simp] theorem fetched_scrollY (s : State) : (s.fetched).scrollY = s.scrollY := rfl
@[simp] theorem fetched_epoch (s : State) : (s.fetched).epoch = s.epoch := rfl
@[simp] theorem fetched_cpuTicks (s : State) : (s.fetched).cpuTicks = s.cpuTicks := rfl
@[simp] theorem fetched_timerTicks (s : State) : (s.fetched).timerTicks = s.timerTicks := rfl
@[simp] theorem fetched_started (s : State) : (s.fetched).started = s.started := rfl
@[simp] theorem fetched_fault (s : State) : (s.fetched).fault = s.fault := rfl
@[simp] theorem fetched_advancing (s : State) : (s.fetched).advancing = s.advancing := rfl
@[simp] theorem fetched_pending (s : State) : (s.fetched).pending = s.pending := rfl
@[simp] theorem fetched_reply (s : State) : (s.fetched).reply = s.reply := rfl
@[simp] theorem fetched_draws (s : State) : (s.fetched).draws = s.draws := rfl
@[simp] theorem fetched_reg (s : State) (k : RegNum) : (s.fetched).reg k = s.reg k := rfl

/-! ### `State.skipIf` -/

@[simp] theorem skipIf_cfg (s : State) (c : Bool) : (s.skipIf c).cfg = s.cfg := by cases c <;> rfl
@[simp] theorem skipIf_mem (s : State) (c : Bool) : (s.skipIf c).mem = s.mem := by cases c <;> rfl
@[simp] theorem skipIf_v (s : State) (c : Bool) : (s.skipIf c).v = s.v := by cases c <;> rfl
@[simp] theorem skipIf_i (s : State) (c : Bool) : (s.skipIf c).i = s.i := by cases c <;> rfl
@[simp] theorem skipIf_stack (s : State) (c : Bool) : (s.skipIf c).stack = s.stack := by cases c <;> rfl
@[simp] theorem skipIf_sp (s : State) (c : Bool) : (s.skipIf c).sp = s.sp := by cases c <;> rfl
@[simp] theorem skipIf_dt (s : State) (c : Bool) : (s.skipIf c).dt = s.dt := by cases c <;> rfl
@[simp] theorem skipIf_st (s : State) (c : Bool) : (s.skipIf c).st = s.st := by cases c <;> rfl
@[simp] theorem skipIf_keys (s : State) (c : Bool) : (s.skipIf c).keys = s.keys := by cases c <;> rfl
@[simp] theorem skipIf_wait (s : State) (c : Bool) : (s.skipIf c).wait = s.wait := by cases c <;> rfl
@[simp] theorem skipIf_screen (s : State) (c : Bool) : (s.skipIf c).screen = s.screen := by cases c <;> rfl
@[simp] theorem skipIf_res (s : State) (c : Bool) : (s.skipIf c).res = s.res := by cases c <;> rfl
@[simp] theorem skipIf_scrollX (s : State) (c : Bool) : (s.skipIf c).scrollX = s.scrollX := by cases c <;> rfl
@[simp] theorem skipIf_scrollY (s : State) (c : Bool) : (s.skipIf c).scrollY = s.scrollY := by cases c <;> rfl
@[simp] theorem skipIf_epoch (s : State) (c : Bool) : (s.skipIf c).epoch = s.epoch := by cases c <;> rfl
@[simp] theorem skipIf_cpuTicks (s : State) (c : Bool) : (s.skipIf c).cpuTicks = s.cpuTicks := by cases c <;> rfl
@[simp] theorem skipIf_timerTicks (s : State) (c : Bool) : (s.skipIf c).timerTicks = s.timerTicks := by cases c <;> rfl
@[simp] theorem skipIf_started (s : State) (c : Bool) : (s.skipIf c).started = s.started := by cases c <;> rfl
@[simp] theorem skipIf_fault (s : State) (c : Bool) : (s.skipIf c).fault = s.fault := by cases c <;> rfl
@[simp] theorem skipIf_advancing (s : State) (c : Bool) : (s.skipIf c).advancing = s.advancing := by cases c <;> rfl
@[simp] theorem skipIf_pending (s : State) (c : Bool) : (s.skipIf c).pending = s.pending := by cases c <;> rfl
@[simp] theorem skipIf_reply (s : State) (c : Bool) : (s.skipIf c).reply = s.reply := by cases c <;> rfl
@[simp] theorem skipIf_draws (s : State) (c : Bool) : (s.skipIf c).draws = s.draws := by cases c <;> rfl
@[simp] theorem skipIf_reg (s : State) (c : Bool) (k : RegNum) : (s.skipIf c).reg k = s.reg k := by cases c <;> rfl

/-! ### `State.store` -/

@[simp] theorem store_cfg (s : State) (cells : List Host.Cell) : (s.store cells).cfg = s.cfg := rfl
@[simp] theorem store_v (s : State) (cells : List Host.Cell) : (s.store cells).v = s.v := rfl
@[simp] theorem store_pc (s : State) (cells : List Host.Cell) : (s.store cells).pc = s.pc := rfl
@[simp] theorem store_i (s : State) (cells : List Host.Cell) : (s.store cells).i = s.i := rfl
@[simp] theorem store_stack (s : State) (cells : List Host.Cell) : (s.store cells).stack = s.stack := rfl
@[simp] theorem store_sp (s : State) (cells : List Host.Cell) : (s.store cells).sp = s.sp := rfl
@[simp] theorem store_dt (s : State) (cells : List Host.Cell) : (s.store cells).dt = s.dt := rfl
@[simp] theorem store_st (s : State) (cells : List Host.Cell) : (s.store cells).st = s.st := rfl
@[simp] theorem store_keys (s : State) (cells : List Host.Cell) : (s.store cells).keys = s.keys := rfl
@[simp] theorem store_wait (s : State) (cells : List Host.Cell) : (s.store cells).wait = s.wait := rfl
@[simp] theorem store_screen (s : State) (cells : List Host.Cell) : (s.store cells).screen = s.screen := rfl
@[simp] theorem store_res (s : State) (cells : List Host.Cell) : (s.store cells).res = s.res := rfl
@[simp] theorem store_scrollX (s : State) (cells : List Host.Cell) : (s.store cells).scrollX = s.scrollX := rfl
@[simp] theorem store_scrollY (s : State) (cells : List Host.Cell) : (s.store cells).scrollY = s.scrollY := rfl
@[simp] theorem store_epoch (s : State) (cells : List Host.Cell) : (s.store cells).epoch = s.epoch := rfl
@[simp] theorem store_cpuTicks (s : State) (cells : List Host.Cell) : (s.store cells).cpuTicks = s.cpuTicks := rfl
@[simp] theorem store_timerTicks (s : State) (cells : List Host.Cell) : (s.store cells).timerTicks = s.timerTicks := rfl
@[simp] theorem store_started (s : State) (cells : List Host.Cell) : (s.store cells).started = s.started := rfl
@[simp] theorem store_fault (s : State) (cells : List Host.Cell) : (s.store cells).fault = s.fault := rfl
@[simp] theorem store_advancing (s : State) (cells : List Host.Cell) : (s.store cells).advancing = s.advancing := rfl
@[simp] theorem store_pending (s : State) (cells : List Host.Cell) : (s.store cells).pending = s.pending := rfl
@[simp] theorem store_reply (s : State) (cells : List Host.Cell) : (s.store cells).reply = s.reply := rfl
@[simp] theorem store_draws (s : State) (cells : List Host.Cell) : (s.store cells).draws = s.draws := rfl
@[simp] theorem store_reg (s : State) (cells : List Host.Cell) (k : RegNum) : (s.store cells).reg k = s.reg k := rfl

/-! ### `State.raise` -/

@[simp] theorem raise_cfg (s : State) (fk : FaultKind) (op : Option Word) : (s.raise fk op).cfg = s.cfg := rfl
@[simp] theorem raise_mem (s : State) (fk : FaultKind) (op : Option Word) : (s.raise fk op).mem = s.mem := rfl
@[simp] theorem raise_v (s : State) (fk : FaultKind) (op : Option Word) : (s.raise fk op).v = s.v := rfl
@[simp] theorem raise_pc (s : State) (fk : FaultKind) (op : Option Word) : (s.raise fk op).pc = s.pc := rfl
@[simp] theorem raise_i (s : State) (fk : FaultKind) (op : Option Word) : (s.raise fk op).i = s.i := rfl
@[simp] theorem raise_stack (s : State) (fk : FaultKind) (op : Option Word) : (s.raise fk op).stack = s.stack := rfl
@[simp] theorem raise_sp (s : State) (fk : FaultKind) (op : Option Word) : (s.raise fk op).sp = s.sp := rfl
@[simp] theorem raise_dt (s : State) (fk : FaultKind) (op : Option Word) : (s.raise fk op).dt = s.dt := rfl
@[simp] theorem raise_st (s : State) (fk : FaultKind) (op : Option Word) : (s.raise fk op).st = s.st := rfl
@[simp] theorem raise_keys (s : State) (fk : FaultKind) (op : Option Word) : (s.raise fk op).keys = s.keys := rfl
@[simp] theorem raise_wait (s : State) (fk : FaultKind) (op : Option Word) : (s.raise fk op).wait = s.wait := rfl
@[simp] theorem raise_screen (s : State) (fk : FaultKind) (op : Option Word) : (s.raise fk op).screen = s.screen := rfl
@[simp] theorem raise_res (s : State) (fk : FaultKind) (op : Option Word) : (s.raise fk op).res = s.res := rfl
@[simp] theorem raise_scrollX (s : State) (fk : FaultKind) (op : Option Word) : (s.raise fk op).scrollX = s.scrollX := rfl
@[simp] theorem raise_scrollY (s : State) (fk : FaultKind) (op : Option Word) : (s.raise fk op).scrollY = s.scrollY := rfl
@[simp] theorem raise_epoch (s : State) (fk : FaultKind) (op : Option Word) : (s.raise fk op).epoch = s.epoch := rfl
@[simp] theorem raise_cpuTicks (s : State) (fk : FaultKind) (op : Option Word) : (s.raise fk op).cpuTicks = s.cpuTicks := rfl
@[simp] theorem raise_timerTicks (s : State) (fk : FaultKind) (op : Option Word) : (s.raise fk op).timerTicks = s.timerTicks := rfl
@[simp] theorem raise_started (s : State) (fk : FaultKind) (op : Option Word) : (s.raise fk op).started = s.started := rfl
@[simp] theorem raise_advancing (s : State) (fk : FaultKind) (op : Option Word) : (s.raise fk op).advancing = s.advancing := rfl
@[simp] theorem raise_pending (s : State) (fk : FaultKind) (op : Option Word) : (s.raise fk op).pending = s.pending := rfl
@[simp] theorem raise_reply (s : State) (fk : FaultKind) (op : Option Word) : (s.raise fk op).reply = s.reply := rfl
@[simp] theorem raise_draws (s : State) (fk : FaultKind) (op : Option Word) : (s.raise fk op).draws = s.draws := rfl
@[simp] theorem raise_reg (s : State) (fk : FaultKind) (op : Option Word) (k : RegNum) : (s.raise fk op).reg k = s.reg k := rfl

/-! ### `State.loadRegs` -/

@[simp] theorem loadRegs_cfg (s : State) (x : RegNum) : (s.loadRegs x).cfg = s.cfg := rfl
@[simp] theorem loadRegs_mem (s : State) (x : RegNum) : (s.loadRegs x).mem = s.mem := rfl
@[simp] theorem loadRegs_pc (s : State) (x : RegNum) : (s.loadRegs x).pc = s.pc := rfl
@[simp] theorem loadRegs_i (s : State) (x : RegNum) : (s.loadRegs x).i = s.i := rfl
@[simp] theorem loadRegs_stack (s : State) (x : RegNum) : (s.loadRegs x).stack = s.stack := rfl
@[simp] theorem loadRegs_sp (s : State) (x : RegNum) : (s.loadRegs x).sp = s.sp := rfl
@[simp] theorem loadRegs_dt (s : State) (x : RegNum) : (s.loadRegs x).dt = s.dt := rfl
@[simp] theorem loadRegs_st (s : State) (x : RegNum) : (s.loadRegs x).st = s.st := rfl
@[simp] theorem loadRegs_keys (s : State) (x : RegNum) : (s.loadRegs x).keys = s.keys := rfl
@[simp] theorem loadRegs_wait (s : State) (x : RegNum) : (s.loadRegs x).wait = s.wait := rfl
@[simp] theorem loadRegs_screen (s : State) (x : RegNum) : (s.loadRegs x).screen = s.screen := rfl
@[simp] theorem loadRegs_res (s : State) (x : RegNum) : (s.loadRegs x).res = s.res := rfl
@[simp] theorem loadRegs_scrollX (s : State) (x : RegNum) : (s.loadRegs x).scrollX = s.scrollX := rfl
@[simp] theorem loadRegs_scrollY (s : State) (x : RegNum) : (s.loadRegs x).scrollY = s.scrollY := rfl
@[simp] theorem loadRegs_epoch (s : State) (x : RegNum) : (s.loadRegs x).epoch = s.epoch := rfl
@[simp] theorem loadRegs_cpuTicks (s : State) (x : RegNum) : (s.loadRegs x).cpuTicks = s.cpuTicks := rfl
@[simp] theorem loadRegs_timerTicks (s : State) (x : RegNum) : (s.loadRegs x).timerTicks = s.timerTicks := rfl
@[simp] theorem loadRegs_started (s : State) (x : RegNum) : (s.loadRegs x).started = s.started := rfl
@[simp] theorem loadRegs_fault (s : State) (x : RegNum) : (s.loadRegs x).fault = s.fault := rfl
@[simp] theorem loadRegs_advancing (s : State) (x : RegNum) : (s.loadRegs x).advancing = s.advancing := rfl
@[simp] theorem loadRegs_pending (s : State) (x : RegNum) : (s.loadRegs x).pending = s.pending := rfl
@[simp] theorem loadRegs_reply (s : State) (x : RegNum) : (s.loadRegs x).reply = s.reply := rfl
@[simp] theorem loadRegs_draws (s : State) (x : RegNum) : (s.loadRegs x).draws = s.draws := rfl

/-! ### `State.writeFlagged` -/

@[simp] theorem writeFlagged_cfg (s : State) (x : RegNum) (rf : Byte × Bool) : (s.writeFlagged x rf).cfg = s.cfg := by unfold State.writeFlagged; split <;> rfl
@[simp] theorem writeFlagged_mem (s : State) (x : RegNum) (rf : Byte × Bool) : (s.writeFlagged x rf).mem = s.mem := by unfold State.writeFlagged; split <;> rfl
@[simp] theorem writeFlagged_pc (s : State) (x : RegNum) (rf : Byte × Bool) : (s.writeFlagged x rf).pc = s.pc := by unfold State.writeFlagged; split <;> rfl
@[simp] theorem writeFlagged_i (s : State) (x : RegNum) (rf : Byte × Bool) : (s.writeFlagged x rf).i = s.i := by unfold State.writeFlagged; split <;> rfl
@[simp] theorem writeFlagged_stack (s : State) (x : RegNum) (rf : Byte × Bool) : (s.writeFlagged x rf).stack = s.stack := by unfold State.writeFlagged; split <;> rfl
@[simp] theorem writeFlagged_sp (s : State) (x : RegNum) (rf : Byte × Bool) : (s.writeFlagged x rf).sp = s.sp := by unfold State.writeFlagged; split <;> rfl
@[simp] theorem writeFlagged_dt (s : State) (x : RegNum) (rf : Byte × Bool) : (s.writeFlagged x rf).dt = s.dt := by unfold State.writeFlagged; split <;> rfl
@[simp] theorem writeFlagged_st (s : State) (x : RegNum) (rf : Byte × Bool) : (s.writeFlagged x rf).st = s.st := by unfold State.writeFlagged; split <;> rfl
@[simp] theorem writeFlagged_keys (s : State) (x : RegNum) (rf : Byte × Bool) : (s.writeFlagged x rf).keys = s.keys := by unfold State.writeFlagged; split <;> rfl
@[simp] theorem writeFlagged_wait (s : State) (x : RegNum) (rf : Byte × Bool) : (s.writeFlagged x rf).wait = s.wait := by unfold State.writeFlagged; split <;> rfl
@[simp] theorem writeFlagged_screen (s : State) (x : RegNum) (rf : Byte × Bool) : (s.writeFlagged x rf).screen = s.screen := by unfold State.writeFlagged; split <;> rfl
@[simp] theorem writeFlagged_res (s : State) (x : RegNum) (rf : Byte × Bool) : (s.writeFlagged x rf).res = s.res := by unfold State.writeFlagged; split <;> rfl
@[simp] theorem writeFlagged_scrollX (s : State) (x : RegNum) (rf : Byte × Bool) : (s.writeFlagged x rf).scrollX = s.scrollX := by unfold State.writeFlagged; split <;> rfl
@[simp] theorem writeFlagged_scrollY (s : State) (x : RegNum) (rf : Byte × Bool) : (s.writeFlagged x rf).scrollY = s.scrollY := by unfold State.writeFlagged; split <;> rfl
@[simp] theorem writeFlagged_epoch (s : State) (x : RegNum) (rf : Byte × Bool) : (s.writeFlagged x rf).epoch = s.epoch := by unfold State.writeFlagged; split <;> rfl
@[simp] theorem writeFlagged_cpuTicks (s : State) (x : RegNum) (rf : Byte × Bool) : (s.writeFlagged x rf).cpuTicks = s.cpuTicks := by unfold State.writeFlagged; split <;> rfl
@[simp] theorem writeFlagged_timerTicks (s : State) (x : RegNum) (rf : Byte × Bool) : (s.writeFlagged x rf).timerTicks = s.timerTicks := by unfold State.writeFlagged; split <;> rfl
@[simp] theorem writeFlagged_started (s : State) (x : RegNum) (rf : Byte × Bool) : (s.writeFlagged x rf).started = s.started := by unfold State.writeFlagged; split <;> rfl
@[simp] theorem writeFlagged_fault (s : State) (x : RegNum) (rf : Byte × Bool) : (s.writeFlagged x rf).fault = s.fault := by unfold State.writeFlagged; split <;> rfl
@[simp] theorem writeFlagged_advancing (s : State) (x : RegNum) (rf : Byte × Bool) : (s.writeFlagged x rf).advancing = s.advancing := by unfold State.writeFlagged; split <;> rfl
@[simp] theorem writeFlagged_pending (s : State) (x : RegNum) (rf : Byte × Bool) : (s.writeFlagged x rf).pending = s.pending := by unfold State.writeFlagged; split <;> rfl
@[simp] theorem writeFlagged_reply (s : State) (x : RegNum) (rf : Byte × Bool) : (s.writeFlagged x rf).reply = s.reply := by unfold State.writeFlagged; split <;> rfl
@[simp] theorem writeFlagged_draws (s : State) (x : RegNum) (rf : Byte × Bool) : (s.writeFlagged x rf).draws = s.draws := by unfold State.writeFlagged; split <;> rfl

/-! ### `State.draw` -/

@[simp] theorem draw_cfg (s : State) (ps : List (Nat × Nat)) : (s.draw ps).cfg = s.cfg := rfl
@[simp] theorem draw_mem (s : State) (ps : List (Nat × Nat)) : (s.draw ps).mem = s.mem := rfl
@[simp] theorem draw_pc (s : State) (ps : List (Nat × Nat)) : (s.draw ps).pc = s.pc := rfl
@[simp] theorem draw_i (s : State) (ps : List (Nat × Nat)) : (s.draw ps).i = s.i := rfl
@[simp] theorem draw_stack (s : State) (ps : List (Nat × Nat)) : (s.draw ps).stack = s.stack := rfl
@[simp] theorem draw_sp (s : State) (ps : List (Nat × Nat)) : (s.draw ps).sp = s.sp := rfl
@[simp] theorem draw_dt (s : State) (ps : List (Nat × Nat)) : (s.draw ps).dt = s.dt := rfl
@[simp] theorem draw_st (s : State) (ps : List (Nat × Nat)) : (s.draw ps).st = s.st := rfl
@[simp] theorem draw_keys (s : State) (ps : List (Nat × Nat)) : (s.draw ps).keys = s.keys := rfl
@[simp] theorem draw_wait (s : State) (ps : List (Nat × Nat)) : (s.draw ps).wait = s.wait := rfl
@[simp] theorem draw_res (s : State) (ps : List (Nat × Nat)) : (s.draw ps).res = s.res := rfl
@[simp] theorem draw_scrollX (s : State) (ps : List (Nat × Nat)) : (s.draw ps).scrollX = s.scrollX := rfl
@[simp] theorem draw_scrollY (s : State) (ps : List (Nat × Nat)) : (s.draw ps).scrollY = s.scrollY := rfl
@[simp] theorem draw_epoch (s : State) (ps : List (Nat × Nat)) : (s.draw ps).epoch = s.epoch := rfl
@[simp] theorem draw_cpuTicks (s : State) (ps : List (Nat × Nat)) : (s.draw ps).cpuTicks = s.cpuTicks := rfl
@[simp] theorem draw_timerTicks (s : State) (ps : List (Nat × Nat)) : (s.draw ps).timerTicks = s.timerTicks := rfl
@[simp] theorem draw_started (s : State) (ps : List (Nat × Nat)) : (s.draw ps).started = s.started := rfl
@[simp] theorem draw_fault (s : State) (ps : List (Nat × Nat)) : (s.draw ps).fault = s.fault := rfl
@[simp] theorem draw_advancing (s : State) (ps : List (Nat × Nat)) : (s.draw ps).advancing = s.advancing := rfl
@[simp] theorem draw_pending (s : State) (ps : List (Nat × Nat)) : (s.draw ps).pending = s.pending := rfl
@[simp] theorem draw_reply (s : State) (ps : List (Nat × Nat)) : (s.draw ps).reply = s.reply := rfl
@[simp] theorem draw_draws (s : State) (ps : List (Nat × Nat)) : (s.draw ps).draws = s.draws := rfl

/-! ### `State.reanchor` -/

@[simp] theorem reanchor_cfg (s : State) (now : Millis) : (s.reanchor now).cfg = s.cfg := rfl
@[simp] theorem reanchor_mem (s : State) (now : Millis) : (s.reanchor now).mem = s.mem := rfl
@[simp] theorem reanchor_v (s : State) (now : Millis) : (s.reanchor now).v = s.v := rfl
@[simp] theorem reanchor_pc (s : State) (now : Millis) : (s.reanchor now).pc = s.pc := rfl
@[simp] theorem reanchor_i (s : State) (now : Millis) : (s.reanchor now).i = s.i := rfl
@[simp] theorem reanchor_stack (s : State) (now : Millis) : (s.reanchor now).stack = s.stack := rfl
@[simp] theorem reanchor_sp (s : State) (now : Millis) : (s.reanchor now).sp = s.sp := rfl
@[simp] theorem reanchor_dt (s : State) (now : Millis) : (s.reanchor now).dt = s.dt := rfl
@[simp] theorem reanchor_st (s : State) (now : Millis) : (s.reanchor now).st = s.st := rfl
@[simp] theorem reanchor_keys (s : State) (now : Millis) : (s.reanchor now).keys = s.keys := rfl
@[simp] theorem reanchor_wait (s : State) (now : Millis) : (s.reanchor now).wait = s.wait := rfl
@[simp] theorem reanchor_screen (s : State) (now : Millis) : (s.reanchor now).screen = s.screen := rfl
@[simp] theorem reanchor_res (s : State) (now : Millis) : (s.reanchor now).res = s.res := rfl
@[simp] theorem reanchor_scrollX (s : State) (now : Millis) : (s.reanchor now).scrollX = s.scrollX := rfl
@[simp] theorem reanchor_scrollY (s : State) (now : Millis) : (s.reanchor now).scrollY = s.scrollY := rfl
@[simp] theorem reanchor_started (s : State) (now : Millis) : (s.reanchor now).started = s.started := rfl
@[simp] theorem reanchor_fault (s : State) (now : Millis) : (s.reanchor now).fault = s.fault := rfl
@[simp] theorem reanchor_advancing (s : State) (now : Millis) : (s.reanchor now).advancing = s.advancing := rfl
@[simp] theorem reanchor_pending (s : State) (now : Millis) : (s.reanchor now).pending = s.pending := rfl
@[simp] theorem reanchor_reply (s : State) (now : Millis) : (s.reanchor now).reply = s.reply := rfl
@[simp] theorem reanchor_draws (s : State) (now : Millis) : (s.reanchor now).draws = s.draws := rfl
@[simp] theorem reanchor_reg (s : State) (now : Millis) (k : RegNum) : (s.reanchor now).reg k = s.reg k := rfl

/-! ### `State.countCpu` -/

@[simp] theorem countCpu_cfg (s : State) : (s.countCpu).cfg = s.cfg := rfl
@[simp] theorem countCpu_mem (s : State) : (s.countCpu).mem = s.mem := rfl
@[simp] theorem countCpu_v (s : State) : (s.countCpu).v = s.v := rfl
@[simp] theorem countCpu_pc (s : State) : (s.countCpu).pc = s.pc := rfl
@[simp] theorem countCpu_i (s : State) : (s.countCpu).i = s.i := rfl
@[simp] theorem countCpu_stack (s : State) : (s.countCpu).stack = s.stack := rfl
@[simp] theorem countCpu_sp (s : State) : (s.countCpu).sp = s.sp := rfl
@[simp] theorem countCpu_dt (s : State) : (s.countCpu).dt = s.dt := rfl
@[simp] theorem countCpu_st (s : State) : (s.countCpu).st = s.st := rfl
@[simp] theorem countCpu_keys (s : State) : (s.countCpu).keys = s.keys := rfl
@[simp] theorem countCpu_wait (s : State) : (s.countCpu).wait = s.wait := rfl
@[simp] theorem countCpu_screen (s : State) : (s.countCpu).screen = s.screen := rfl
@[simp] theorem countCpu_res (s : State) : (s.countCpu).res = s.res := rfl
@[simp] theorem countCpu_scrollX (s : State) : (s.countCpu).scrollX = s.scrollX := rfl
@[simp] theorem countCpu_scrollY (s : State) : (s.countCpu).scrollY = s.scrollY := rfl
@[simp] theorem countCpu_epoch (s : State) : (s.countCpu).epoch = s.epoch := rfl
@[simp] theorem countCpu_timerTicks (s : State) : (s.countCpu).timerTicks = s.timerTicks := rfl
@[simp] theorem countCpu_started (s : State) : (s.countCpu).started = s.started := rfl
@[simp] theorem countCpu_fault (s : State) : (s.countCpu).fault = s.fault := rfl
@[simp] theorem countCpu_advancing (s : State) : (s.countCpu).advancing = s.advancing := rfl
@[simp] theorem countCpu_pending (s : State) : (s.countCpu).pending = s.pending := rfl
@[simp] theorem countCpu_reply (s : State) : (s.countCpu).reply = s.reply := rfl
@[simp] theorem countCpu_draws (s : State) : (s.countCpu).draws = s.draws := rfl
@[simp] theorem countCpu_reg (s : State) (k : RegNum) : (s.countCpu).reg k = s.reg k := rfl

/-! ### `State.countTimer` -/

@[simp] theorem countTimer_cfg (s : State) : (s.countTimer).cfg = s.cfg := rfl
@[simp] theorem countTimer_mem (s : State) : (s.countTimer).mem = s.mem := rfl
@[simp] theorem countTimer_v (s : State) : (s.countTimer).v = s.v := rfl
@[simp] theorem countTimer_pc (s : State) : (s.countTimer).pc = s.pc := rfl
@[simp] theorem countTimer_i (s : State) : (s.countTimer).i = s.i := rfl
@[simp] theorem countTimer_stack (s : State) : (s.countTimer).stack = s.stack := rfl
@[simp] theorem countTimer_sp (s : State) : (s.countTimer).sp = s.sp := rfl
@[simp] theorem countTimer_dt (s : State) : (s.countTimer).dt = s.dt := rfl
@[simp] theorem countTimer_st (s : State) : (s.countTimer).st = s.st := rfl
@[simp] theorem countTimer_keys (s : State) : (s.countTimer).keys = s.keys := rfl
@[simp] theorem countTimer_wait (s : State) : (s.countTimer).wait = s.wait := rfl
@[simp] theorem countTimer_screen (s : State) : (s.countTimer).screen = s.screen := rfl
@[simp] theorem countTimer_res (s : State) : (s.countTimer).res = s.res := rfl
@[simp] theorem countTimer_scrollX (s : State) : (s.countTimer).scrollX = s.scrollX := rfl
@[simp] theorem countTimer_scrollY (s : State) : (s.countTimer).scrollY = s.scrollY := rfl
@[simp] theorem countTimer_epoch (s : State) : (s.countTimer).epoch = s.epoch := rfl
@[simp] theorem countTimer_cpuTicks (s : State) : (s.countTimer).cpuTicks = s.cpuTicks := rfl
@[simp] theorem countTimer_started (s : State) : (s.countTimer).started = s.started := rfl
@[simp] theorem countTimer_fault (s : State) : (s.countTimer).fault = s.fault := rfl
@[simp] theorem countTimer_advancing (s : State) : (s.countTimer).advancing = s.advancing := rfl
@[simp] theorem countTimer_pending (s : State) : (s.countTimer).pending = s.pending := rfl
@[simp] theorem countTimer_reply (s : State) : (s.countTimer).reply = s.reply := rfl
@[simp] theorem countTimer_draws (s : State) : (s.countTimer).draws = s.draws := rfl
@[simp] theorem countTimer_reg (s : State) (k : RegNum) : (s.countTimer).reg k = s.reg k := rfl

/-! ### `State.timerTick` -/

@[simp] theorem timerTick_cfg (s : State) : (s.timerTick).cfg = s.cfg := rfl
@[simp] theorem timerTick_mem (s : State) : (s.timerTick).mem = s.mem := rfl
@[simp] theorem timerTick_v (s : State) : (s.timerTick).v = s.v := rfl
@[simp] theorem timerTick_pc (s : State) : (s.timerTick).pc = s.pc := rfl
@[simp] theorem timerTick_i (s : State) : (s.timerTick).i = s.i := rfl
@[simp] theorem timerTick_stack (s : State) : (s.timerTick).stack = s.stack := rfl
@[simp] theorem timerTick_sp (s : State) : (s.timerTick).sp = s.sp := rfl
@[simp] theorem timerTick_keys (s : State) : (s.timerTick).keys = s.keys := rfl
@[simp] theorem timerTick_wait (s : State) : (s.timerTick).wait = s.wait := rfl
@[simp] theorem timerTick_screen (s : State) : (s.timerTick).screen = s.screen := rfl
@[simp] theorem timerTick_res (s : State) : (s.timerTick).res = s.res := rfl
@[simp] theorem timerTick_scrollX (s : State) : (s.timerTick).scrollX = s.scrollX := rfl
@[simp] theorem timerTick_scrollY (s : State) : (s.timerTick).scrollY = s.scrollY := rfl
@[simp] theorem timerTick_epoch (s : State) : (s.timerTick).epoch = s.epoch := rfl
@[simp] theorem timerTick_cpuTicks (s : State) : (s.timerTick).cpuTicks = s.cpuTicks := rfl
@[simp] theorem timerTick_timerTicks (s : State) : (s.timerTick).timerTicks = s.timerTicks := rfl
@[simp] theorem timerTick_started (s : State) : (s.timerTick).started = s.started := rfl
@[simp] theorem timerTick_fault (s : State) : (s.timerTick).fault = s.fault := rfl
@[simp] theorem timerTick_advancing (s : State) : (s.timerTick).advancing = s.advancing := rfl
@[simp] theorem timerTick_pending (s : State) : (s.timerTick).pending = s.pending := rfl
@[simp] theorem timerTick_reply (s : State) : (s.timerTick).reply = s.reply := rfl
@[simp] theorem timerTick_draws (s : State) : (s.timerTick).draws = s.draws := rfl
@[simp] theorem timerTick_reg (s : State) (k : RegNum) : (s.timerTick).reg k = s.reg k := rfl

/-! ### `State.finish` -/

@[simp] theorem finish_cfg (s : State) (r : Reply) : (s.finish r).cfg = s.cfg := rfl
@[simp] theorem finish_mem (s : State) (r : Reply) : (s.finish r).mem = s.mem := rfl
@[simp] theorem finish_v (s : State) (r : Reply) : (s.finish r).v = s.v := rfl
@[simp] theorem finish_pc (s : State) (r : Reply) : (s.finish r).pc = s.pc := rfl
@[simp] theorem finish_i (s : State) (r : Reply) : (s.finish r).i = s.i := rfl
@[simp] theorem finish_stack (s : State) (r : Reply) : (s.finish r).stack = s.stack := rfl
@[simp] theorem finish_sp (s : State) (r : Reply) : (s.finish r).sp = s.sp := rfl
@[simp] theorem finish_dt (s : State) (r : Reply) : (s.finish r).dt = s.dt := rfl
@[simp] theorem finish_st (s : State) (r : Reply) : (s.finish r).st = s.st := rfl
@[simp] theorem finish_keys (s : State) (r : Reply) : (s.finish r).keys = s.keys := rfl
@[simp] theorem finish_wait (s : State) (r : Reply) : (s.finish r).wait = s.wait := rfl
@[simp] theorem finish_screen (s : State) (r : Reply) : (s.finish r).screen = s.screen := rfl
@[simp] theorem finish_res (s : State) (r : Reply) : (s.finish r).res = s.res := rfl
@[simp] theorem finish_scrollX (s : State) (r : Reply) : (s.finish r).scrollX = s.scrollX := rfl
@[simp] theorem finish_scrollY (s : State) (r : Reply) : (s.finish r).scrollY = s.scrollY := rfl
@[simp] theorem finish_epoch (s : State) (r : Reply) : (s.finish r).epoch = s.epoch := rfl
@[simp] theorem finish_cpuTicks (s : State) (r : Reply) : (s.finish r).cpuTicks = s.cpuTicks := rfl
@[simp] theorem finish_timerTicks (s : State) (r : Reply) : (s.finish r).timerTicks = s.timerTicks := rfl
@[simp] theorem finish_started (s : State) (r : Reply) : (s.finish r).started = s.started := rfl
@[simp] theorem finish_fault (s : State) (r : Reply) : (s.finish r).fault = s.fault := rfl
@[simp] theorem finish_pending (s : State) (r : Reply) : (s.finish r).pending = s.pending := rfl
@[simp] theorem finish_draws (s : State) (r : Reply) : (s.finish r).draws = s.draws := rfl
@[simp] theorem finish_reg (s : State) (r : Reply) (k : RegNum) : (s.finish r).reg k = s.reg k := rfl

/-! ### What each update sets -/

@[simp] theorem setPc_pc (s : State) (a : Word) : (s.setPc a).pc = a := rfl
@[simp] theorem fetched_pc (s : State) : s.fetched.pc = s.pc + 2#16 := rfl
@[simp] theorem skipIf_pc (s : State) (c : Bool) : (s.skipIf c).pc = if c then s.pc + 2#16 else s.pc := by cases c <;> rfl
@[simp] theorem store_mem (s : State) (cells : List Host.Cell) : (s.store cells).mem = Memory.writeAll s.mem cells := rfl
@[simp] theorem raise_fault (s : State) (k : FaultKind) (op : Option Word) : (s.raise k op).fault = some ⟨k, s.pc, op⟩ := rfl
theorem raise_eq_faulted (s : State) (k : FaultKind) (op : Option Word) : s.raise k op = faulted s k op := rfl
@[simp] theorem reanchor_epoch (s : State) (now : Millis) : (s.reanchor now).epoch = now := rfl
@[simp] theorem reanchor_cpuTicks (s : State) (now : Millis) : (s.reanchor now).cpuTicks = 0#64 := rfl
@[simp] theorem reanchor_timerTicks (s : State) (now : Millis) : (s.reanchor now).timerTicks = 0#64 := rfl
@[simp] theorem countCpu_cpuTicks (s : State) : s.countCpu.cpuTicks = s.cpuTicks + 1#64 := rfl
@[simp] theorem countTimer_timerTicks (s : State) : s.countTimer.timerTicks = s.timerTicks + 1#64 := rfl
@[simp] theorem timerTick_dt (s : State) : s.timerTick.dt = countDown s.dt := rfl
@[simp] theorem timerTick_st (s : State) : s.timerTick.st = countDown s.st := rfl
@[simp] theorem finish_advancing (s : State) (r : Reply) : (s.finish r).advancing = none := rfl
@[simp] theorem finish_reply (s : State) (r : Reply) : (s.finish r).reply = some r := rfl
@[simp] theorem draw_screen (s : State) (ps : List (Nat × Nat)) : (s.draw ps).screen = Screen.flipAll s.screen ps := rfl

/-! ### Reading a register after a write -/

@[simp] theorem reg_setReg_same (s : State) (x : RegNum) (b : Byte) : (s.setReg x b).reg x = b := by
  simp [State.reg, State.setReg]

theorem reg_setReg_other (s : State) {x k : RegNum} (b : Byte) (h : k ≠ x) : (s.setReg x b).reg k = s.reg k := by
  have : x.toNat ≠ k.toNat := fun e => h (BitVec.eq_of_toNat_eq e.symm)
  simp [State.reg, State.setReg, this]

/-- Reading a register after a write: the written value, or what stood there. -/
theorem reg_setReg (s : State) (x k : RegNum) (b : Byte) : (s.setReg x b).reg k = if k = x then b else s.reg k := by
  by_cases h : k = x
  · simp [h]
  · simp [h, reg_setReg_other s b h]

theorem reg_loadRegs (s : State) (x k : RegNum) :
    (s.loadRegs x).reg k = if k.toNat ≤ x.toNat then s.dataByte k.toNat else s.reg k := by
  simp [State.reg, State.loadRegs]

theorem reg_draw (s : State) (ps : List (Nat × Nat)) (k : RegNum) :
    (s.draw ps).reg k = if k = 0xF#4 then flagByte (collides s.screen ps) else s.reg k := reg_setReg _ _ _ _

/-- R157 at one register: which of the two writes it holds afterwards. -/
theorem reg_writeFlagged (s : State) (x k : RegNum) (rf : Byte × Bool) :
    (s.writeFlagged x rf).reg k =
      match s.cfg.vfOrder with
      | .resultLast => if k = x then rf.1 else if k = 0xF#4 then flagByte rf.2 else s.reg k
      | .flagLast => if k = 0xF#4 then flagByte rf.2 else if k = x then rf.1 else s.reg k := by
  cases h : s.cfg.vfOrder <;> simp [State.writeFlagged, h, reg_setReg]

end Sys2Proof.Machine.Laws
end

