-- ==== Sys2Proof/Laws/Memory.lean ====
section
/-!
SUPPORT. Memory: a read after a write, and that every operation keeps the canonical form.
-/

namespace Sys2Proof.Machine.Laws

/-- Nothing below a sorted list's bound is listed. -/
theorem read_below {m : Memory} {lo a : Nat} (h : Memory.wfFrom lo m = true) (ha : a < lo) : Memory.read m a = 0#8 := by
  induction m generalizing lo with
  | nil => rfl
  | cons c m ih =>
    obtain ⟨b, x⟩ := c
    simp only [Memory.wfFrom, Bool.and_eq_true, decide_eq_true_eq] at h
    obtain ⟨⟨h1, -⟩, h3⟩ := h
    simp only [Memory.read]
    rw [if_neg (by omega), ih h3 (by omega)]

/-- A write to a sorted list keeps it sorted and free of zero bytes. -/
theorem wfFrom_write {m : Memory} {lo a : Nat} (x : Byte) (h : Memory.wfFrom lo m = true) (ha : lo ≤ a) :
    Memory.wfFrom lo (Memory.write m a x) = true := by
  induction m generalizing lo with
  | nil =>
    simp only [Memory.write]
    split <;> simp [Memory.wfFrom, *]
  | cons c m ih =>
    obtain ⟨b, y⟩ := c
    have h' := h
    simp only [Memory.wfFrom, Bool.and_eq_true, decide_eq_true_eq, bne_iff_ne, ne_eq] at h
    obtain ⟨⟨h1, h2⟩, h3⟩ := h
    have weaken : ∀ {l k : Nat} {q : Memory}, k ≤ l → Memory.wfFrom l q = true → Memory.wfFrom k q = true := by
      intro l k q hk hq
      cases q with
      | nil => rfl
      | cons d q =>
        simp only [Memory.wfFrom, Bool.and_eq_true, decide_eq_true_eq] at hq ⊢
        exact ⟨⟨by omega, hq.1.2⟩, hq.2⟩
    simp only [Memory.write]
    split
    · split
      · exact h'
      · simp only [Memory.wfFrom, Bool.and_eq_true, decide_eq_true_eq, bne_iff_ne, ne_eq]
        exact ⟨⟨ha, by assumption⟩, ⟨by omega, h2⟩, h3⟩
    · split
      · subst_vars
        split
        · exact weaken (by omega) h3
        · simp [Memory.wfFrom, *]
      · simp only [Memory.wfFrom, Bool.and_eq_true, decide_eq_true_eq, bne_iff_ne, ne_eq]
        exact ⟨⟨h1, h2⟩, ih h3 (by omega)⟩

/-- A read after a write, at any address: the byte written, or what stood there. -/
theorem read_writeFrom {m : Memory} {lo : Nat} (a b : Nat) (x : Byte) (h : Memory.wfFrom lo m = true) :
    Memory.read (Memory.write m a x) b = if b = a then x else Memory.read m b := by
  induction m generalizing lo with
  | nil =>
    simp only [Memory.write]
    split <;> by_cases hb : b = a <;> simp [Memory.read, *]
  | cons c m ih =>
    obtain ⟨d, y⟩ := c
    simp only [Memory.wfFrom, Bool.and_eq_true, decide_eq_true_eq] at h
    obtain ⟨-, h3⟩ := h
    have hz : Memory.read m d = 0#8 := read_below h3 (by omega)
    simp only [Memory.write]
    split
    · have ha : Memory.read m a = 0#8 := read_below h3 (by omega)
      by_cases hx : x = 0#8 <;> by_cases hb : b = a <;> simp [Memory.read, hx, hb, ha]
      exact fun e => absurd e (by omega)
    · split
      · subst_vars
        by_cases hx : x = 0#8 <;> by_cases hb : b = d <;> simp [Memory.read, hx, hb, hz]
      · by_cases hb : b = d
        · subst hb
          have : b ≠ a := by omega
          simp [Memory.read, this]
        · simp [Memory.read, hb, ih h3]

/-- The two halves of the canonical form. -/
theorem wf_iff {m : Memory} :
    Memory.wf m = true ↔ Memory.wfFrom 0 m = true ∧ ∀ c ∈ m, c.1 < memSize := by
  simp [Memory.wf]

/-- A write lists no address but its own and those listed before. -/
theorem mem_write {m : Memory} {a : Nat} {x : Byte} {c : Host.Cell} (h : c ∈ Memory.write m a x) : c.1 = a ∨ c ∈ m := by
  induction m with
  | nil =>
    simp only [Memory.write] at h
    split at h <;> simp_all
  | cons d m ih =>
    obtain ⟨b, y⟩ := d
    simp only [Memory.write] at h
    split at h
    · split at h
      · exact .inr h
      · rcases List.mem_cons.mp h with rfl | h
        · exact .inl rfl
        · exact .inr h
    · split at h
      · split at h
        · exact .inr (List.mem_cons_of_mem _ h)
        · rcases List.mem_cons.mp h with rfl | h
          · exact .inl rfl
          · exact .inr (List.mem_cons_of_mem _ h)
      · rcases List.mem_cons.mp h with rfl | h
        · exact .inr List.mem_cons_self
        · exact (ih h).imp_right (List.mem_cons_of_mem _)

/-- A write inside the memory keeps the canonical form. -/
theorem wf_write {m : Memory} {a : Nat} (x : Byte) (h : Memory.wf m = true) (ha : a < memSize) :
    Memory.wf (Memory.write m a x) = true := by
  rw [wf_iff] at h ⊢
  refine ⟨wfFrom_write x h.1 (Nat.zero_le a), fun c hc => ?_⟩
  rcases mem_write hc with hc | hc
  · omega
  · exact h.2 c hc

/-- A read after one write. -/
theorem read_write {m : Memory} (a b : Nat) (x : Byte) (h : Memory.wf m = true) :
    Memory.read (Memory.write m a x) b = if b = a then x else Memory.read m b :=
  read_writeFrom a b x (wf_iff.mp h).1

/-- A sequence of writes inside the memory keeps the canonical form. -/
theorem wf_writeAll {m : Memory} {cs : List Host.Cell} (h : Memory.wf m = true) (hc : ∀ c ∈ cs, c.1 < memSize) :
    Memory.wf (Memory.writeAll m cs) = true := by
  induction cs generalizing m with
  | nil => exact h
  | cons c cs ih =>
    exact ih (wf_write c.2 h (hc c List.mem_cons_self)) (fun d hd => hc d (List.mem_cons_of_mem _ hd))

/-- An address no cell names reads as before, whatever the list held. -/
theorem read_writeAll_other {m : Memory} {cs : List Host.Cell} {a : Nat} (h : Memory.wf m = true)
    (hc : ∀ c ∈ cs, c.1 < memSize) (ha : ∀ c ∈ cs, c.1 ≠ a) :
    Memory.read (Memory.writeAll m cs) a = Memory.read m a := by
  induction cs generalizing m with
  | nil => rfl
  | cons c cs ih =>
    have h1 := wf_write c.2 h (hc c List.mem_cons_self)
    rw [Memory.writeAll, ih h1 (fun d hd => hc d (List.mem_cons_of_mem _ hd)) (fun d hd => ha d (List.mem_cons_of_mem _ hd)),
      read_write _ _ _ h, if_neg (fun e => ha c List.mem_cons_self e.symm)]

/-- An address that a cell names, and no later cell names again, reads as that cell's byte. -/
theorem read_writeAll_at {m : Memory} {pre post : List Host.Cell} {c : Host.Cell} (h : Memory.wf m = true)
    (hc : ∀ d ∈ pre ++ c :: post, d.1 < memSize) (ha : ∀ d ∈ post, d.1 ≠ c.1) :
    Memory.read (Memory.writeAll m (pre ++ c :: post)) c.1 = c.2 := by
  induction pre generalizing m with
  | nil =>
    have h1 := wf_write c.2 h (hc c (by simp))
    rw [List.nil_append, Memory.writeAll, read_writeAll_other h1 (fun d hd => hc d (by simp [hd])) ha, read_write _ _ _ h,
      if_pos rfl]
  | cons d pre ih =>
    exact ih (wf_write d.2 h (hc d (by simp))) (fun e he => hc e (List.mem_cons_of_mem _ he))

end Sys2Proof.Machine.Laws
end

