-- ==== Sys2Proof/Laws/Ops.lean ====
section
/-!
SUPPORT. One lemma per shared operation that says what it can do: the fetch, the skip, the guarded data accesses, the
screen, the flags.
-/

namespace Sys2Proof.Machine.Laws

/-! ### Fetch, skip -/

/-- R90: the fetched word as a number. -/
theorem toNat_wordOfBytes (hi lo : Byte) : (wordOfBytes hi lo).toNat = hi.toNat * 256 + lo.toNat := by
  have h : lo.toNat < 2 ^ 8 := lo.isLt
  rw [wordOfBytes, BitVec.toNat_append, ← Nat.shiftLeft_add_eq_or_of_lt h, Nat.shiftLeft_eq]

/-- A fetch answers exactly when both bytes are inside memory, and then with the two bytes at `PC` (R90, R92). -/
theorem fetch_eq_some {s : State} {op : Word} :
    s.fetch = some op ↔
      s.pc.toNat ≤ 4094 ∧ wordOfBytes (Memory.read s.mem s.pc.toNat) (Memory.read s.mem (s.pc.toNat + 1)) = op := by
  by_cases h : s.pc.toNat ≤ 4094 <;> simp [State.fetch, memSize, h]

theorem fetch_eq_none {s : State} : s.fetch = none ↔ 4094 < s.pc.toNat := by
  by_cases h : s.pc.toNat ≤ 4094
  · simp [State.fetch, memSize, h]
  · simp [State.fetch, memSize, h]
    omega

/-- A skip changes `PC` only. -/
theorem skipIf_eq (s : State) (c : Bool) : s.skipIf c = { s with pc := if c then s.pc + 2#16 else s.pc } := by
  cases c <;> rfl

/-! ### Data accesses -/

/-- `Check(kmax)` of R194 passes exactly when the accesses may be made. -/
theorem accessFaults_eq_false {s : State} {kmax : Nat} : s.accessFaults kmax = false ↔ DataInRange s kmax := by
  unfold State.accessFaults State.inRange DataInRange
  cases s.cfg.addrPolicy <;> simp

/-- What a guarded instruction can do (R194): the fault with nothing else changed, or its effect. -/
theorem guarded_cases {s e t : State} {kmax : Nat} {op : Word} (h : s.guarded kmax op e = .next t) :
    (¬ DataInRange s kmax ∧ t = faulted s .memoryOutOfRange (some op)) ∨ (DataInRange s kmax ∧ t = e) := by
  unfold State.guarded at h
  split at h
  · exact .inl ⟨by rw [← accessFaults_eq_false]; simp_all, (Host.Outcome.next.inj h).symm⟩
  · exact .inr ⟨by rw [← accessFaults_eq_false]; simp_all, (Host.Outcome.next.inj h).symm⟩

theorem guarded_pass {s e : State} {kmax : Nat} {op : Word} (h : DataInRange s kmax) : s.guarded kmax op e = .next e := by
  rw [State.guarded, accessFaults_eq_false.mpr h]
  rfl

theorem guarded_fault {s e : State} {kmax : Nat} {op : Word} (h : ¬ DataInRange s kmax) :
    s.guarded kmax op e = .next (faulted s .memoryOutOfRange (some op)) := by
  rw [State.guarded, if_pos (by rw [← Bool.not_eq_false, accessFaults_eq_false]; exact h)]
  rfl

/-- An address that passed the check is inside the memory. -/
theorem access_lt {s : State} {kmax k : Nat} (h : DataInRange s kmax) (hk : k ≤ kmax) : s.access k < memSize := by
  unfold DataInRange at h
  unfold State.access
  split
  · rcases h with h | h
    · simp_all
    · omega
  · exact Nat.mod_lt _ (by decide)

/-- Different offsets below 4096 give different addresses. -/
theorem access_inj {s : State} {j k : Nat} (hj : j < 4096) (hk : k < 4096) (h : s.access j = s.access k) : j = k := by
  unfold State.access memSize at h
  split at h <;> omega

/-- The cells of a store: the j-th byte goes to `Access(k + j)`. -/
theorem mem_cellsFrom {s : State} {k : Nat} {bs : List Byte} {c : Host.Cell} :
    c ∈ s.cellsFrom k bs ↔ ∃ j, ∃ h : j < bs.length, c = (s.access (k + j), bs[j]) := by
  induction bs generalizing k with
  | nil => simp [State.cellsFrom]
  | cons b bs ih =>
    simp only [State.cellsFrom, List.mem_cons, ih]
    constructor
    · rintro (rfl | ⟨j, h, rfl⟩)
      · exact ⟨0, by simp, rfl⟩
      · exact ⟨j + 1, by simpa using h, by rw [show k + (j + 1) = k + 1 + j by omega]; rfl⟩
    · rintro ⟨j, h, rfl⟩
      cases j with
      | zero => exact .inl rfl
      | succ j => exact .inr ⟨j, by simpa using h, by rw [show k + (j + 1) = k + 1 + j by omega]; rfl⟩

/-- A store of at most 4096 bytes, at an address of its own: the byte stored there. -/
theorem read_store_at {s : State} {k : Nat} {bs : List Byte} (hw : MemCanonical s)
    (hc : ∀ j, j < bs.length → s.access (k + j) < memSize) (hn : k + bs.length ≤ 4096) {j : Nat} (hj : j < bs.length) :
    Memory.read (Memory.writeAll s.mem (s.cellsFrom k bs)) (s.access (k + j)) = bs[j] := by
  obtain ⟨m, hm⟩ : ∃ m, s.mem = m := ⟨_, rfl⟩
  rw [MemCanonical, hm] at hw
  rw [hm]
  clear hm
  induction bs generalizing k m j with
  | nil => simp at hj
  | cons b bs ih =>
    have h0 : s.access k < memSize := hc 0 (by simp)
    have h1 := wf_write b hw h0
    have hc' : ∀ j, j < bs.length → s.access (k + 1 + j) < memSize := fun j hj => by
      have := hc (j + 1) (by simpa using hj)
      rwa [show k + (j + 1) = k + 1 + j by omega] at this
    simp only [State.cellsFrom, Memory.writeAll]
    simp only [List.length_cons] at hn hj
    cases j with
    | zero =>
      rw [read_writeAll_other h1, read_write _ _ _ hw]
      · simp
      · intro c hcc
        obtain ⟨j, hj, rfl⟩ := mem_cellsFrom.mp hcc
        exact hc' j hj
      · intro c hcc
        obtain ⟨j, hj, rfl⟩ := mem_cellsFrom.mp hcc
        intro e
        have := access_inj (by omega) (by omega) e
        omega
    | succ j =>
      have := ih hc' (by omega) (j := j) (by omega) _ h1
      rw [show k + (j + 1) = k + 1 + j by omega, this]
      simp

/-- A store leaves every address it does not write. -/
theorem read_store_other {s : State} {k a : Nat} {bs : List Byte} (hw : MemCanonical s)
    (hc : ∀ j, j < bs.length → s.access (k + j) < memSize) (ha : ∀ j, j < bs.length → s.access (k + j) ≠ a) :
    Memory.read (Memory.writeAll s.mem (s.cellsFrom k bs)) a = Memory.read s.mem a :=
  read_writeAll_other hw
    (fun c hcc => by obtain ⟨j, hj, rfl⟩ := mem_cellsFrom.mp hcc; exact hc j hj)
    (fun c hcc => by obtain ⟨j, hj, rfl⟩ := mem_cellsFrom.mp hcc; exact ha j hj)

/-- A store keeps the canonical form. -/
theorem wf_store {s : State} {k : Nat} {bs : List Byte} (hw : MemCanonical s)
    (hc : ∀ j, j < bs.length → s.access (k + j) < memSize) :
    Memory.wf (Memory.writeAll s.mem (s.cellsFrom k bs)) = true :=
  wf_writeAll hw (fun c hcc => by obtain ⟨j, hj, rfl⟩ := mem_cellsFrom.mp hcc; exact hc j hj)

@[simp] theorem length_bcdDigits (b : Byte) : (bcdDigits b).length = 3 := rfl

@[simp] theorem length_regsUpTo (s : State) (x : RegNum) : (s.regsUpTo x).length = x.toNat + 1 := by
  simp [State.regsUpTo]

/-- The bytes `Fx55` stores are `V0..Vx` in order (R196). -/
theorem getElem_regsUpTo (s : State) (x k : RegNum) (h : k.toNat < (s.regsUpTo x).length) :
    (s.regsUpTo x)[k.toNat] = s.reg k := by
  simp [State.regsUpTo]

/-! ### Flags -/

@[simp] theorem toNat_flagByte (f : Bool) : (flagByte f).toNat = if f then 1 else 0 := by cases f <;> rfl

@[simp] theorem toNat_u8 (n : Nat) : (u8 n).toNat = n % 256 := by simp [u8]

/-- `V` alone changes in a flagged write. -/
theorem writeFlagged_eq (s : State) (x : RegNum) (rf : Byte × Bool) :
    s.writeFlagged x rf = { s with v := (s.writeFlagged x rf).v } := by
  unfold State.writeFlagged
  split <;> rfl

/-! ### The screen -/

/-- A pixel after one flip. A flip outside the storage's rows changes nothing. -/
theorem pixel_flip (scr : Screen) (x y X Y : Nat) (hx : x < 128) (hy : y < 64) :
    Screen.pixel (Screen.flip scr x y) X Y = (Screen.pixel scr X Y ^^ (decide (X = x) && decide (Y = y))) := by
  by_cases hY : Y = y
  · subst hY
    simp [Screen.pixel, Screen.flip, Screen.row, hy, BitVec.getLsbD_xor, BitVec.getLsbD_twoPow, hx]
    by_cases h : X = x <;> simp [h]
    intro; omega
  · have : ¬ y = Y := fun e => hY e.symm
    simp [Screen.pixel, Screen.flip, Screen.row, hY, this]

/-- A pixel after the flips of a list without repeats. -/
theorem pixel_flipAll {ps : List (Nat × Nat)} (hp : ∀ p ∈ ps, p.1 < 128 ∧ p.2 < 64) (hn : ps.Nodup) (scr : Screen) (X Y : Nat) :
    Screen.pixel (Screen.flipAll scr ps) X Y = (Screen.pixel scr X Y ^^ decide ((X, Y) ∈ ps)) := by
  induction ps generalizing scr with
  | nil => simp [Screen.flipAll]
  | cons p ps ih =>
    obtain ⟨x, y⟩ := p
    have h0 := hp (x, y) List.mem_cons_self
    rw [List.nodup_cons] at hn
    rw [Screen.flipAll, ih (fun q hq => hp q (List.mem_cons_of_mem _ hq)) hn.2, pixel_flip _ _ _ _ _ h0.1 h0.2]
    by_cases h : (X, Y) = (x, y)
    · obtain ⟨rfl, rfl⟩ := Prod.mk.inj h
      simp [hn.1]
    · have : ¬ (X = x ∧ Y = y) := fun e => h (by rw [e.1, e.2])
      by_cases hX : X = x <;> simp_all

/-- Two screens with the same pixels are the same screen. -/
theorem screen_ext {a b : Screen} (h : ∀ X Y, Screen.pixel a X Y = Screen.pixel b X Y) : a = b := by
  apply Vector.ext
  intro y hy
  apply BitVec.eq_of_getLsbD_eq
  intro x _
  simpa [Screen.pixel, Screen.row, hy] using h x y

@[simp] theorem pixel_blank (X Y : Nat) : Screen.pixel Screen.blank X Y = false := by
  by_cases h : Y < 64 <;> simp [Screen.pixel, Screen.row, Screen.blank, h]

/-- The collision of R212: some pixel of the list was set. -/
theorem collides_iff {scr : Screen} {ps : List (Nat × Nat)} :
    collides scr ps = true ↔ ∃ X Y, (X, Y) ∈ ps ∧ Screen.pixel scr X Y = true := by
  simp [collides]

/-- Where a sprite's bits land, one by one (R210, R211). -/
theorem mem_spritePixels {res : Resolution} {px py w r0 : Nat} {rows : List (BitVec w)} {X Y : Nat} :
    (X, Y) ∈ spritePixels res px py w r0 rows ↔
      ∃ c r, ∃ h : r < rows.length, c < w ∧ rows[r].getLsbD (w - 1 - c) = true ∧
        X = (px + c) % resWidth res ∧ Y = (py + (r0 + r)) % resHeight res := by
  induction rows generalizing r0 with
  | nil => simp [spritePixels]
  | cons b rows ih =>
    simp only [spritePixels, rowColumns, List.mem_append, List.mem_map, List.mem_filter, List.mem_range, ih]
    constructor
    · rintro (⟨c, ⟨hc, hb⟩, e⟩ | ⟨c, r, h, hc, hb, e1, e2⟩)
      · obtain ⟨rfl, rfl⟩ := Prod.mk.inj e
        exact ⟨c, 0, by simp, hc, hb, rfl, rfl⟩
      · exact ⟨c, r + 1, by simpa using h, hc, hb, e1, by rw [e2]; congr 1; omega⟩
    · rintro ⟨c, r, h, hc, hb, e1, e2⟩
      cases r with
      | zero => exact .inl ⟨c, ⟨hc, hb⟩, by rw [e1, e2]; rfl⟩
      | succ r => exact .inr ⟨c, r, by simpa using h, hc, hb, e1, by rw [e2]; congr 1; omega⟩

theorem resWidth_pos (res : Resolution) : 64 ≤ resWidth res ∧ resWidth res ≤ 128 := by cases res <;> decide

theorem resHeight_pos (res : Resolution) : 32 ≤ resHeight res ∧ resHeight res ≤ 64 := by cases res <;> decide

/-- Two offsets less than the modulus apart stay apart under it: "no draw touches one pixel twice" (R211). -/
theorem mod_offset_inj {b m i j : Nat} (hi : i < m) (hj : j < m) (h : (b + i) % m = (b + j) % m) : i = j := by
  have : i % m = j % m := Nat.ModEq.add_left_cancel' b h
  rwa [Nat.mod_eq_of_lt hi, Nat.mod_eq_of_lt hj] at this

/-- R211: no draw touches one pixel twice. -/
theorem nodup_spritePixels {res : Resolution} {px py w r0 : Nat} {rows : List (BitVec w)} (hw : w ≤ 64)
    (hr : r0 + rows.length ≤ 32) : (spritePixels res px py w r0 rows).Nodup := by
  have hW := resWidth_pos res
  have hH := resHeight_pos res
  induction rows generalizing r0 with
  | nil => simp [spritePixels]
  | cons b rows ih =>
    simp only [List.length_cons] at hr
    rw [spritePixels, List.nodup_append]
    refine ⟨?_, ih (by omega), ?_⟩
    · refine List.Nodup.map_on ?_ ((List.nodup_range).filter _)
      intro c hc d hd e
      simp only [rowColumns, List.mem_filter, List.mem_range] at hc hd
      exact mod_offset_inj (by omega) (by omega) (Prod.mk.inj e).1
    · rintro ⟨X, Y⟩ hp q hq rfl
      obtain ⟨c, -, e⟩ := List.mem_map.mp hp
      obtain ⟨-, r, h, -, -, -, e2⟩ := mem_spritePixels.mp hq
      have := mod_offset_inj (by omega) (by omega) ((Prod.mk.inj e).2.trans e2)
      omega

/-- Every pixel a sprite touches is in the active area, hence in the storage (R29, R211). -/
theorem spritePixels_active {res : Resolution} {px py w r0 : Nat} {rows : List (BitVec w)} {p : Nat × Nat}
    (h : p ∈ spritePixels res px py w r0 rows) : p.1 < resWidth res ∧ p.2 < resHeight res := by
  obtain ⟨X, Y⟩ := p
  obtain ⟨c, r, -, -, -, rfl, rfl⟩ := mem_spritePixels.mp h
  have hW := resWidth_pos res
  have hH := resHeight_pos res
  exact ⟨Nat.mod_lt _ (by omega), Nat.mod_lt _ (by omega)⟩

theorem spritePixels_stored {res : Resolution} {px py w r0 : Nat} {rows : List (BitVec w)} {p : Nat × Nat}
    (h : p ∈ spritePixels res px py w r0 rows) : p.1 < 128 ∧ p.2 < 64 := by
  have h1 := spritePixels_active h
  have hW := resWidth_pos res
  have hH := resHeight_pos res
  omega

end Sys2Proof.Machine.Laws
end

