-- ==== Sys2Proof/Laws/Decode.lean ====
section
/-!
SUPPORT. The bits of a word: its fields as numbers, the three layouts of R93 as numbers, and masks over them.
-/

namespace Sys2Proof.Machine.Laws

/-! ### The layouts of R93 as numbers -/

theorem toNat_append_bv {a b : Nat} (x : BitVec a) (y : BitVec b) : (x ++ y).toNat = x.toNat * 2 ^ b + y.toNat := by
  rw [BitVec.toNat_append, ← Nat.shiftLeft_add_eq_or_of_lt y.isLt, Nat.shiftLeft_eq]

theorem toNat_tn (t : BitVec 4) (n : Addr12) : BitVec.toNat (w := 16) (t ++ n) = t.toNat * 4096 + n.toNat :=
  toNat_append_bv t n

theorem toNat_txk (t x : BitVec 4) (k : Byte) : BitVec.toNat (w := 16) (t ++ x ++ k) = t.toNat * 4096 + x.toNat * 256 + k.toNat := by
  have := toNat_append_bv (t ++ x) k
  have h2 := toNat_append_bv t x
  simp only [Nat.reducePow] at this h2
  refine this.trans ?_
  omega

theorem toNat_txyn (t x y n : BitVec 4) :
    BitVec.toNat (w := 16) (t ++ x ++ y ++ n) = t.toNat * 4096 + x.toNat * 256 + y.toNat * 16 + n.toNat := by
  have h3 := toNat_append_bv (t ++ x ++ y) n
  have h1 := toNat_append_bv (t ++ x) y
  have h2 := toNat_append_bv t x
  simp only [Nat.reducePow] at h1 h2 h3
  refine h3.trans ?_
  omega
/-! ### The fields of R94 as numbers -/

theorem toNat_fieldTop (op : Word) : (fieldTop op).toNat = op.toNat / 4096 := by
  have := op.isLt
  simp [fieldTop, Nat.shiftRight_eq_div_pow]; omega

theorem toNat_fieldX (op : Word) : (fieldX op).toNat = op.toNat / 256 % 16 := by
  simp [fieldX, Nat.shiftRight_eq_div_pow]

theorem toNat_fieldY (op : Word) : (fieldY op).toNat = op.toNat / 16 % 16 := by
  simp [fieldY, Nat.shiftRight_eq_div_pow]

theorem toNat_fieldN (op : Word) : (fieldN op).toNat = op.toNat % 16 := by
  simp [fieldN]

theorem toNat_fieldKK (op : Word) : (fieldKK op).toNat = op.toNat % 256 := by
  simp [fieldKK]

theorem toNat_fieldNNN (op : Word) : (fieldNNN op).toNat = op.toNat % 4096 := by
  simp [fieldNNN]

/-! ### The fields of each layout -/

@[simp] theorem fieldTop_tn (t : BitVec 4) (n : Addr12) : fieldTop (t ++ n : Word) = t := by
  apply BitVec.eq_of_toNat_eq
  rw [toNat_fieldTop, toNat_tn]
  omega

@[simp] theorem fieldNNN_tn (t : BitVec 4) (n : Addr12) : fieldNNN (t ++ n : Word) = n := by
  apply BitVec.eq_of_toNat_eq
  rw [toNat_fieldNNN, toNat_tn]
  omega

@[simp] theorem fieldTop_txk (t x : BitVec 4) (k : Byte) : fieldTop (t ++ x ++ k : Word) = t := by
  apply BitVec.eq_of_toNat_eq
  rw [toNat_fieldTop, toNat_txk]
  omega

@[simp] theorem fieldX_txk (t x : BitVec 4) (k : Byte) : fieldX (t ++ x ++ k : Word) = x := by
  apply BitVec.eq_of_toNat_eq
  rw [toNat_fieldX, toNat_txk]
  omega

@[simp] theorem fieldKK_txk (t x : BitVec 4) (k : Byte) : fieldKK (t ++ x ++ k : Word) = k := by
  apply BitVec.eq_of_toNat_eq
  rw [toNat_fieldKK, toNat_txk]
  omega

@[simp] theorem fieldTop_txyn (t x y n : BitVec 4) : fieldTop (t ++ x ++ y ++ n : Word) = t := by
  apply BitVec.eq_of_toNat_eq
  rw [toNat_fieldTop, toNat_txyn]
  omega

@[simp] theorem fieldX_txyn (t x y n : BitVec 4) : fieldX (t ++ x ++ y ++ n : Word) = x := by
  apply BitVec.eq_of_toNat_eq
  rw [toNat_fieldX, toNat_txyn]
  omega

@[simp] theorem fieldY_txyn (t x y n : BitVec 4) : fieldY (t ++ x ++ y ++ n : Word) = y := by
  apply BitVec.eq_of_toNat_eq
  rw [toNat_fieldY, toNat_txyn]
  omega

@[simp] theorem fieldN_txyn (t x y n : BitVec 4) : fieldN (t ++ x ++ y ++ n : Word) = n := by
  apply BitVec.eq_of_toNat_eq
  rw [toNat_fieldN, toNat_txyn]
  omega

/-! ### Masks over the layouts (R98) -/

theorem and_txyn (t x y n a b c d : BitVec 4) : ((t ++ x ++ y ++ n : Word) &&& (a ++ b ++ c ++ d : Word)) = ((t &&& a) ++ (x &&& b) ++ (y &&& c) ++ (n &&& d) : Word) := by
  refine (BitVec.and_append (x₁ := t ++ x ++ y) (x₂ := a ++ b ++ c) (y₁ := n) (y₂ := d)).trans ?_
  rw [BitVec.and_append, BitVec.and_append]

theorem and_txk (t x a b : BitVec 4) (k c : Byte) : ((t ++ x ++ k : Word) &&& (a ++ b ++ c : Word)) = ((t &&& a) ++ (x &&& b) ++ (k &&& c) : Word) := by
  refine (BitVec.and_append (x₁ := t ++ x) (x₂ := a ++ b) (y₁ := k) (y₂ := c)).trans ?_
  rw [BitVec.and_append]

theorem and_tn (t a : BitVec 4) (k c : Addr12) : ((t ++ k : Word) &&& (a ++ c : Word)) = ((t &&& a) ++ (k &&& c) : Word) := by
  exact BitVec.and_append

/-! ### A word is put together again from its fields -/

theorem word_of_tn (op : Word) (t : BitVec 4) (n : Addr12) (h1 : fieldTop op = t) (h2 : fieldNNN op = n) :
    (t ++ n : Word) = op := by
  subst h1 h2
  apply BitVec.eq_of_toNat_eq
  rw [toNat_tn, toNat_fieldTop, toNat_fieldNNN]
  omega

theorem word_of_txk (op : Word) (t x : BitVec 4) (k : Byte) (h1 : fieldTop op = t) (h2 : fieldX op = x)
    (h3 : fieldKK op = k) : (t ++ x ++ k : Word) = op := by
  subst h1 h2 h3
  apply BitVec.eq_of_toNat_eq
  rw [toNat_txk, toNat_fieldTop, toNat_fieldX, toNat_fieldKK]
  omega

theorem word_of_txyn (op : Word) (t x y n : BitVec 4) (h1 : fieldTop op = t) (h2 : fieldX op = x) (h3 : fieldY op = y)
    (h4 : fieldN op = n) : (t ++ x ++ y ++ n : Word) = op := by
  subst h1 h2 h3 h4
  apply BitVec.eq_of_toNat_eq
  rw [toNat_txyn, toNat_fieldTop, toNat_fieldX, toNat_fieldY, toNat_fieldN]
  omega

/-- A number is the word of an instruction when the encoder gives it and the decoder reads it back. -/
theorem wordOf_intro {n : Nat} {i : Instr} (hn : (encode i).toNat = n) (hd : decode (encode i) = .ok i) : WordOf n i := by
  have he : encode i = BitVec.ofNat 16 n := by rw [← hn]; simp
  exact ⟨he, he ▸ hd, hn ▸ (encode i).isLt⟩

end Sys2Proof.Machine.Laws
end

