-- ==== Sys2Proof/Laws/PerInstr.lean ====
section
/-!
SUPPORT. Statements made once per instruction. Family `Row`: the word of a well-formed instruction is matched by the row of
spec/opcode_table.json that bears its mnemonic (30_encoding R98).
-/

namespace Sys2Proof.Laws.Row

/-- The row of the opcode table with the instruction's mnemonic matches its word. -/
def Statement (i : Instr) : Prop :=
  i.wellFormed = true → ∃ r ∈ opcodeRows, r.mnemonic = i.mnemonic ∧ r.hits (encode i) = true

/-- A row without a constraint hits a word whose masked bits are its pattern. -/
theorem of_mask {i : Instr} (m : String) (p k : Word) (hr : (⟨m, p, k, false⟩ : OpcodeRow) ∈ opcodeRows)
    (hm : m = i.mnemonic) (hk : encode i &&& k = p) : Statement i :=
  fun _ => ⟨_, hr, hm, by simp [OpcodeRow.hits, hk]⟩

theorem cls : Statement .cls :=
  of_mask "CLS" 0x00E0 0xFFFF (by decide) rfl (by rfl)

theorem ret : Statement .ret :=
  of_mask "RET" 0x00EE 0xFFFF (by decide) rfl (by rfl)

theorem jp (nnn : Addr12) : Statement (.jp nnn) :=
  of_mask "JP_nnn" 0x1000 0xF000 (by decide) rfl ((Machine.Laws.and_tn 0x1#4 0xF#4 nnn 0#12).trans (by simp))

theorem call (nnn : Addr12) : Statement (.call nnn) :=
  of_mask "CALL_nnn" 0x2000 0xF000 (by decide) rfl ((Machine.Laws.and_tn 0x2#4 0xF#4 nnn 0#12).trans (by simp))

theorem seImm (x : RegNum) (kk : Byte) : Statement (.seImm x kk) :=
  of_mask "SE_Vx__kk" 0x3000 0xF000 (by decide) rfl ((Machine.Laws.and_txk 0x3#4 x 0xF#4 0#4 kk 0#8).trans (by simp))

theorem sneImm (x : RegNum) (kk : Byte) : Statement (.sneImm x kk) :=
  of_mask "SNE_Vx__kk" 0x4000 0xF000 (by decide) rfl ((Machine.Laws.and_txk 0x4#4 x 0xF#4 0#4 kk 0#8).trans (by simp))

theorem seReg (x : RegNum) (y : RegNum) : Statement (.seReg x y) :=
  of_mask "SE_Vx__Vy" 0x5000 0xF00F (by decide) rfl ((Machine.Laws.and_txyn 0x5#4 x y 0x0#4 0xF#4 0#4 0#4 0xF#4).trans (by simp))

theorem ldImm (x : RegNum) (kk : Byte) : Statement (.ldImm x kk) :=
  of_mask "LD_Vx__kk" 0x6000 0xF000 (by decide) rfl ((Machine.Laws.and_txk 0x6#4 x 0xF#4 0#4 kk 0#8).trans (by simp))

theorem addImm (x : RegNum) (kk : Byte) : Statement (.addImm x kk) :=
  of_mask "ADD_Vx__kk" 0x7000 0xF000 (by decide) rfl ((Machine.Laws.and_txk 0x7#4 x 0xF#4 0#4 kk 0#8).trans (by simp))

theorem ldReg (x : RegNum) (y : RegNum) : Statement (.ldReg x y) :=
  of_mask "LD_Vx__Vy" 0x8000 0xF00F (by decide) rfl ((Machine.Laws.and_txyn 0x8#4 x y 0x0#4 0xF#4 0#4 0#4 0xF#4).trans (by simp))

theorem orReg (x : RegNum) (y : RegNum) : Statement (.orReg x y) :=
  of_mask "OR_Vx__Vy" 0x8001 0xF00F (by decide) rfl ((Machine.Laws.and_txyn 0x8#4 x y 0x1#4 0xF#4 0#4 0#4 0xF#4).trans (by simp))

theorem andReg (x : RegNum) (y : RegNum) : Statement (.andReg x y) :=
  of_mask "AND_Vx__Vy" 0x8002 0xF00F (by decide) rfl ((Machine.Laws.and_txyn 0x8#4 x y 0x2#4 0xF#4 0#4 0#4 0xF#4).trans (by simp))

theorem xorReg (x : RegNum) (y : RegNum) : Statement (.xorReg x y) :=
  of_mask "XOR_Vx__Vy" 0x8003 0xF00F (by decide) rfl ((Machine.Laws.and_txyn 0x8#4 x y 0x3#4 0xF#4 0#4 0#4 0xF#4).trans (by simp))

theorem addReg (x : RegNum) (y : RegNum) : Statement (.addReg x y) :=
  of_mask "ADD_Vx__Vy" 0x8004 0xF00F (by decide) rfl ((Machine.Laws.and_txyn 0x8#4 x y 0x4#4 0xF#4 0#4 0#4 0xF#4).trans (by simp))

theorem subReg (x : RegNum) (y : RegNum) : Statement (.subReg x y) :=
  of_mask "SUB_Vx__Vy" 0x8005 0xF00F (by decide) rfl ((Machine.Laws.and_txyn 0x8#4 x y 0x5#4 0xF#4 0#4 0#4 0xF#4).trans (by simp))

theorem shr (x : RegNum) (y : RegNum) : Statement (.shr x y) :=
  of_mask "SHR_Vx__Vy" 0x8006 0xF00F (by decide) rfl ((Machine.Laws.and_txyn 0x8#4 x y 0x6#4 0xF#4 0#4 0#4 0xF#4).trans (by simp))

theorem subn (x : RegNum) (y : RegNum) : Statement (.subn x y) :=
  of_mask "SUBN_Vx__Vy" 0x8007 0xF00F (by decide) rfl ((Machine.Laws.and_txyn 0x8#4 x y 0x7#4 0xF#4 0#4 0#4 0xF#4).trans (by simp))

theorem shl (x : RegNum) (y : RegNum) : Statement (.shl x y) :=
  of_mask "SHL_Vx__Vy" 0x800E 0xF00F (by decide) rfl ((Machine.Laws.and_txyn 0x8#4 x y 0xE#4 0xF#4 0#4 0#4 0xF#4).trans (by simp))

theorem sneReg (x : RegNum) (y : RegNum) : Statement (.sneReg x y) :=
  of_mask "SNE_Vx__Vy" 0x9000 0xF00F (by decide) rfl ((Machine.Laws.and_txyn 0x9#4 x y 0x0#4 0xF#4 0#4 0#4 0xF#4).trans (by simp))

theorem ldI (nnn : Addr12) : Statement (.ldI nnn) :=
  of_mask "LD_I__nnn" 0xA000 0xF000 (by decide) rfl ((Machine.Laws.and_tn 0xA#4 0xF#4 nnn 0#12).trans (by simp))

theorem jpV0 (nnn : Addr12) : Statement (.jpV0 nnn) :=
  of_mask "JP_V0__nnn" 0xB000 0xF000 (by decide) rfl ((Machine.Laws.and_tn 0xB#4 0xF#4 nnn 0#12).trans (by simp))

theorem rnd (x : RegNum) (kk : Byte) : Statement (.rnd x kk) :=
  of_mask "RND_Vx__kk" 0xC000 0xF000 (by decide) rfl ((Machine.Laws.and_txk 0xC#4 x 0xF#4 0#4 kk 0#8).trans (by simp))

theorem drw (x : RegNum) (y : RegNum) (n : BitVec 4) : Statement (.drw x y n) :=
  fun h => ⟨⟨"DRW_Vx__Vy__n", 0xD000, 0xF000, true⟩, by decide, rfl, by
    have hn : n ≠ 0#4 := by simpa [Instr.wellFormed] using h
    have hk : encode (.drw x y n) &&& 0xF000#16 = 0xD000#16 :=
      (Machine.Laws.and_txyn 0xD#4 x y n 0xF#4 0#4 0#4 0#4).trans (by simp)
    have hf : fieldN (encode (.drw x y n)) = n := Machine.Laws.fieldN_txyn _ _ _ _
    simp [OpcodeRow.hits, hk, hf, hn]⟩

theorem drw16 (x : RegNum) (y : RegNum) : Statement (.drw16 x y) :=
  of_mask "DRW_Vx__Vy__0" 0xD000 0xF00F (by decide) rfl ((Machine.Laws.and_txyn 0xD#4 x y 0x0#4 0xF#4 0#4 0#4 0xF#4).trans (by simp))

theorem skp (x : RegNum) : Statement (.skp x) :=
  of_mask "SKP_Vx" 0xE09E 0xF0FF (by decide) rfl ((Machine.Laws.and_txk 0xE#4 x 0xF#4 0#4 0x9E#8 0xFF#8).trans (by simp))

theorem sknp (x : RegNum) : Statement (.sknp x) :=
  of_mask "SKNP_Vx" 0xE0A1 0xF0FF (by decide) rfl ((Machine.Laws.and_txk 0xE#4 x 0xF#4 0#4 0xA1#8 0xFF#8).trans (by simp))

theorem ldVxDt (x : RegNum) : Statement (.ldVxDt x) :=
  of_mask "LD_Vx__DT" 0xF007 0xF0FF (by decide) rfl ((Machine.Laws.and_txk 0xF#4 x 0xF#4 0#4 0x07#8 0xFF#8).trans (by simp))

theorem ldVxK (x : RegNum) : Statement (.ldVxK x) :=
  of_mask "LD_Vx__K" 0xF00A 0xF0FF (by decide) rfl ((Machine.Laws.and_txk 0xF#4 x 0xF#4 0#4 0x0A#8 0xFF#8).trans (by simp))

theorem ldDtVx (x : RegNum) : Statement (.ldDtVx x) :=
  of_mask "LD_DT__Vx" 0xF015 0xF0FF (by decide) rfl ((Machine.Laws.and_txk 0xF#4 x 0xF#4 0#4 0x15#8 0xFF#8).trans (by simp))

theorem ldStVx (x : RegNum) : Statement (.ldStVx x) :=
  of_mask "LD_ST__Vx" 0xF018 0xF0FF (by decide) rfl ((Machine.Laws.and_txk 0xF#4 x 0xF#4 0#4 0x18#8 0xFF#8).trans (by simp))

theorem addI (x : RegNum) : Statement (.addI x) :=
  of_mask "ADD_I__Vx" 0xF01E 0xF0FF (by decide) rfl ((Machine.Laws.and_txk 0xF#4 x 0xF#4 0#4 0x1E#8 0xFF#8).trans (by simp))

theorem ldF (x : RegNum) : Statement (.ldF x) :=
  of_mask "LD_F__Vx" 0xF029 0xF0FF (by decide) rfl ((Machine.Laws.and_txk 0xF#4 x 0xF#4 0#4 0x29#8 0xFF#8).trans (by simp))

theorem ldB (x : RegNum) : Statement (.ldB x) :=
  of_mask "LD_B__Vx" 0xF033 0xF0FF (by decide) rfl ((Machine.Laws.and_txk 0xF#4 x 0xF#4 0#4 0x33#8 0xFF#8).trans (by simp))

theorem ldMemVx (x : RegNum) : Statement (.ldMemVx x) :=
  of_mask "LD__I___Vx" 0xF055 0xF0FF (by decide) rfl ((Machine.Laws.and_txk 0xF#4 x 0xF#4 0#4 0x55#8 0xFF#8).trans (by simp))

theorem ldVxMem (x : RegNum) : Statement (.ldVxMem x) :=
  of_mask "LD_Vx___I" 0xF065 0xF0FF (by decide) rfl ((Machine.Laws.and_txk 0xF#4 x 0xF#4 0#4 0x65#8 0xFF#8).trans (by simp))

end Sys2Proof.Laws.Row
end

