-- ==== Sys2Proof/Laws/Step.lean ====
section
/-!
SUPPORT. Everything a step can do, once: the cases of an instruction step and of a step of the machine, with the inversion
lemmas that later proofs cite instead of unfolding `step`.
-/

namespace Sys2Proof.Machine.Laws

/-- What an instruction step that answers a state can have done (R91, R312). -/
inductive InstrCase (s : State) : State → Prop where
  | fetchFault (h : s.fetch = none) : InstrCase s (faulted s .fetchOutOfRange none)
  | unknown (op : Word) (e : DecodeError) (hf : s.fetch = some op) (hd : decode op = .error e) :
      InstrCase s (faulted s .unknownOpcode (some op))
  | run (op : Word) (i : Instr) (t : State) (hf : s.fetch = some op) (hd : decode op = .ok i) (hx : exec i s = .next t) :
      InstrCase s t

theorem instructionStep_cases {s t : State} (h : instructionStep s = .next t) : InstrCase s t := by
  unfold instructionStep at h
  split at h
  · cases h
    exact .fetchFault ‹_›
  · split at h
    · cases h
      exact .unknown _ _ ‹_› ‹_›
    · exact .run _ _ _ ‹_› ‹_› h

/-- What a step that answers a state can have done (R257, R258, R290). -/
inductive StepCase (s : State) : State → Prop where
  /-- R262: `advance` returns the latched fault. -/
  | faultReturned (now : Millis) (f : FaultRecord) (ha : s.advancing = some now) (hf : s.fault = some f) :
      StepCase s (s.finish (.err (.executor f)))
  /-- R266, in place of a CPU tick. -/
  | cpuReanchor (now : Millis) (ha : s.advancing = some now) (hf : s.fault = none) (hd : s.due now = .cpu)
      (hl : s.cpuTicks = lastTick) : StepCase s (s.reanchor now)
  /-- R260. -/
  | waiting (now : Millis) (r : RegNum) (ha : s.advancing = some now) (hf : s.fault = none) (hd : s.due now = .cpu)
      (hl : s.cpuTicks ≠ lastTick) (hw : s.wait = some r) : StepCase s s.countCpu
  /-- R259, R261: an instruction completed. -/
  | instrDone (now : Millis) (t : State) (ha : s.advancing = some now) (hf : s.fault = none) (hd : s.due now = .cpu)
      (hl : s.cpuTicks ≠ lastTick) (hw : s.wait = none) (hi : InstrCase s t) (ht : t.fault = none) : StepCase s t.countCpu
  /-- R262: an instruction step raised. -/
  | instrFault (now : Millis) (t : State) (f : FaultRecord) (ha : s.advancing = some now) (hf : s.fault = none)
      (hd : s.due now = .cpu) (hl : s.cpuTicks ≠ lastTick) (hw : s.wait = none) (hi : InstrCase s t)
      (ht : t.fault = some f) : StepCase s t
  /-- R266, in place of a timer tick. -/
  | timerReanchor (now : Millis) (ha : s.advancing = some now) (hf : s.fault = none) (hd : s.due now = .timer)
      (hl : s.timerTicks = lastTick) : StepCase s (s.reanchor now)
  /-- R264. -/
  | timer (now : Millis) (ha : s.advancing = some now) (hf : s.fault = none) (hd : s.due now = .timer)
      (hl : s.timerTicks ≠ lastTick) : StepCase s s.timerTick.countTimer
  /-- R263: nothing is due. -/
  | returned (now : Millis) (ha : s.advancing = some now) (hf : s.fault = none) (hd : s.due now = .nothing) :
      StepCase s (s.finish .ok)
  /-- R324: no command has come. -/
  | idle (ha : s.advancing = none) (hp : s.pending = []) : StepCase s s
  /-- R290: the next host command. -/
  | command (c : Command) (rest : List Command) (ha : s.advancing = none) (hp : s.pending = c :: rest) :
      StepCase s (State.perform { s with pending := rest } c)

/-- The inversion of `step`: it answers a state only under parameters in range, and then one of the named cases holds. -/
theorem step_cases {s t : State} (h : step s = .next t) : s.cfg.valid = true ∧ StepCase s t := by
  unfold step machineStep at h
  split at h
  · refine ⟨‹_›, ?_⟩
    split at h
    · rename_i now ha
      unfold advanceStep at h
      split at h
      · cases h
        exact .faultReturned now _ ha ‹_›
      · rename_i hf
        split at h
        · rename_i hd
          split at h
          · cases h
            exact .cpuReanchor now ha hf hd ‹_›
          · rename_i hl
            unfold cpuTick at h
            split at h
            · cases h
              exact .waiting now _ ha hf hd hl ‹_›
            · rename_i hw
              unfold countIfDone at h
              split at h
              · rename_i u hu
                cases h
                have hi := instructionStep_cases hu
                cases hx : u.fault with
                | none => exact .instrDone now u ha hf hd hl hw hi hx
                | some f => exact .instrFault now u f ha hf hd hl hw hi hx
              · cases h
              · cases h
        · rename_i hd
          split at h
          · cases h
            exact .timerReanchor now ha hf hd ‹_›
          · cases h
            exact .timer now ha hf hd ‹_›
        · cases h
          exact .returned now ha hf ‹_›
    · rename_i ha
      split at h
      · cases h
        exact .idle ha ‹_›
      · cases h
        exact .command _ _ ha ‹_›
  · cases h

/-! ### The selection of R258, read both ways -/

theorem due_cpu {s : State} {now : Millis} :
    s.due now = .cpu ↔ s.cpuDeadline < now.toNat ∧ s.cpuDeadline ≤ s.timerDeadline := by
  unfold State.due
  split
  · exact ⟨fun _ => ‹_›, fun _ => rfl⟩
  · rename_i h
    refine ⟨fun e => ?_, fun e => absurd e h⟩
    split at e <;> cases e

theorem due_timer {s : State} {now : Millis} :
    s.due now = .timer ↔
      ¬ (s.cpuDeadline < now.toNat ∧ s.cpuDeadline ≤ s.timerDeadline) ∧ s.timerDeadline < now.toNat := by
  unfold State.due
  split
  · simp_all
  · split <;> simp_all

/-- R257: nothing is due exactly when both deadlines are at or after `now_ms`. -/
theorem due_nothing {s : State} {now : Millis} :
    s.due now = .nothing ↔ now.toNat ≤ s.cpuDeadline ∧ now.toNat ≤ s.timerDeadline := by
  unfold State.due
  split
  · simp; omega
  · split
    · simp; omega
    · simp; omega

/-! ### Running a step -/

theorem step_advancing {s : State} {now : Millis} (h : Advancing s now) :
    step s = match s.due now with
      | .cpu => if s.cpuTicks = lastTick then .next (s.reanchor now) else cpuTick s
      | .timer => if s.timerTicks = lastTick then .next (s.reanchor now) else .next s.timerTick.countTimer
      | .nothing => .next (s.finish .ok) := by
  obtain ⟨h1, h2, h3⟩ := h
  cases hd : s.due now <;> simp [step, machineStep, advanceStep, h1, h2, h3, hd]

/-- R265: the deadline of k ticks is at least k milliseconds after `EPOCH`. -/
theorem le_deadlineOffset (m : DeadlineMode) (k hz : Nat) (h1 : 1 ≤ hz) (h2 : hz ≤ 1000) : k ≤ deadlineOffset m k hz := by
  cases m
  · exact Nat.le_mul_of_pos_right k (Nat.div_pos h2 h1)
  · exact (Nat.le_div_iff_mul_le h1).mpr (Nat.mul_le_mul_left k h2)

theorem lastTick_toNat : lastTick.toNat = 2 ^ 64 - 1 := by decide

/-- R265, R266: a counter whose clock is due is far from its last value. -/
theorem due_ne_lastTick {s : State} {now : Millis} {c : TickCount} {hz : Nat} (h1 : 1 ≤ hz) (h2 : hz ≤ 1000)
    (h : s.epoch.toNat + deadlineOffset s.cfg.deadlineMode c.toNat hz < now.toNat) : c ≠ lastTick := by
  intro e
  have := le_deadlineOffset s.cfg.deadlineMode c.toNat hz h1 h2
  have := now.isLt
  have e' := congrArg BitVec.toNat e
  rw [lastTick_toNat] at e'
  omega

theorem cpuHz_range {c : Config} (h : c.valid = true) : 1 ≤ c.cpuHz ∧ c.cpuHz ≤ 1000 := by
  simp [Config.valid] at h
  omega

/-- A due CPU tick is taken. -/
theorem step_cpuDue {s : State} {now : Millis} (h : CpuDue s now) : step s = cpuTick s := by
  have hz := cpuHz_range h.1.1
  rw [step_advancing h.1, due_cpu.mpr ⟨h.2.1, h.2.2⟩]
  exact if_neg (due_ne_lastTick hz.1 hz.2 h.2.1)

/-- A due timer tick is taken. -/
theorem step_timerDue {s : State} {now : Millis} (h : TimerDue s now) : step s = .next s.timerTick.countTimer := by
  rw [step_advancing h.1, due_timer.mpr ⟨h.2.1, h.2.2⟩]
  exact if_neg (due_ne_lastTick (hz := timerHz) (by decide) (by decide) h.2.2)

/-- A host command is performed. -/
theorem step_command {s : State} {c : Command} {rest : List Command} (h : Commanded s c rest) :
    step s = .next (State.perform { s with pending := rest } c) := by
  obtain ⟨h1, h2, h3⟩ := h
  simp [step, machineStep, h1, h2, h3]

/-! ### Timers -/

theorem countDown_toNat (b : Byte) : (countDown b).toNat = b.toNat - 1 := by
  unfold countDown
  split
  · simp_all
  · rename_i h
    have : b.toNat ≠ 0 := fun e => h (BitVec.eq_of_toNat_eq e)
    rw [BitVec.toNat_sub]
    have := b.isLt
    simp
    omega

/-! ### Key-wait resolution -/

/-- R256: the scan finds the least pressed key, and finds none exactly when no key is pressed. -/
theorem lowestKey_some {keys : Word} {k : Nat} (h : lowestKey keys = some k) :
    k < 16 ∧ keys.getLsbD k = true ∧ ∀ j, j < k → keys.getLsbD j = false := by
  unfold lowestKey at h
  rw [List.find?_range_eq_some] at h
  obtain ⟨h1, h2, h3⟩ := h
  exact ⟨List.mem_range.mp h2, h1, fun j hj => by simpa using h3 j hj⟩

theorem lowestKey_none {keys : Word} (h : lowestKey keys = none) : keys = 0#16 := by
  unfold lowestKey at h
  rw [List.find?_eq_none] at h
  apply BitVec.eq_of_getLsbD_eq
  intro k hk
  simpa using h k (List.mem_range.mpr hk)

/-! ### The beginning of an `advance`, and runs -/

/-- R254: the skew correction touches only the clocks. -/
theorem skew_eq (s : State) (now : Millis) :
    s.skew now = { s with epoch := (s.skew now).epoch, cpuTicks := (s.skew now).cpuTicks,
                          timerTicks := (s.skew now).timerTicks } := by
  unfold State.skew
  split <;> rfl

/-- R256: the resolution of a key wait touches only `V` and `WAIT`. -/
theorem resolveWait_eq (s : State) : s.resolveWait = { s with v := s.resolveWait.v, wait := s.resolveWait.wait } := by
  unfold State.resolveWait
  split
  · rfl
  · split <;> rfl

/-- R255: an admitted `advance` begins. -/
theorem step_advanceBegins {s : State} {now : Millis} {rest : List Command} (h : Commanded s (.advance now) rest)
    (hs : s.started = true) (hf : s.fault = none) :
    step s = .next { (State.skew { s with pending := rest } now).resolveWait with advancing := some now, reply := none } := by
  rw [step_command h]
  simp [State.perform, State.beginAdvance, hs, hf]

/-- A run of the machine begins with its first step. -/
theorem run_succ {s t : State} (n : Nat) (h : step s = .next t) :
    Host.Core.run core (n + 1) s = Host.Core.run core n t := by
  have h' : core.step s = .next t := h
  simp only [Host.Core.run, h']

end Sys2Proof.Machine.Laws
end

