-- ==== Sys2Proof/Tests/Slice0.lean ====
section
/-!
SUPPORT. Tests: ill-formed terms, every constructor's decoding by a word written out from 30_encoding R93, one step of each
instruction with the result of a vector of spec/95_test_vectors.md (named in the comment), the scheduler and the host commands,
and a witness for the hypotheses of every statement in Certificates.
-/

namespace Sys2Proof.Machine.Tests

/-! ### Helpers -/

/-- A started machine between two commands, without the font. -/
def base : State := { State.reset with started := true }

/-- Some registers set. -/
def withRegs (s : State) (l : List (RegNum × Byte)) : State := l.foldl (fun t p => t.setReg p.1 p.2) s

/-- Some bytes of memory set. -/
def withBytes (s : State) (l : List Host.Cell) : State := s.store l

/-- What a step answered, as a test sees it: a next state with a property. -/
def gives (o : Host.Outcome State Fault Refusal) (p : State → Bool) : Bool :=
  match o with
  | .next t => p t
  | .fault _ => false
  | .refused _ => false

/-- One step of the machine with the word w at `PC` and a CPU tick due. -/
def runs (s : State) (w : Nat) (p : State → Bool) : Bool := gives (step (s.withFetchWord 16 w)) p

/-- A step that takes the fault k at address a, with nothing else changed. -/
def faults (s : State) (w : Nat) (k : FaultKind) : Bool :=
  gives (step (s.withFetchWord 16 w))
    (fun t => t == faulted (s.withFetchWord 16 w) k (some (BitVec.ofNat 16 w)))

/-- One host command. -/
def told (s : State) (c : Command) (p : State → Bool) : Bool := gives (step { s with pending := [c] }) p

/-- A machine whose next tick runs `JP 0x200` (vector S16). -/
def ready : State := base.withFetchWord 16 0x1200

/-! ### WellFormed and Decode -/

/-- The one check refuses its ill-formed term (R98, "n != 0"). -/
theorem test_wellFormed_refuses_drw_zero : (Instr.drw 1#4 2#4 0#4).wellFormed = false := by decide

theorem test_wellFormed_accepts : (Instr.drw 1#4 2#4 1#4).wellFormed = true ∧ (Instr.drw16 1#4 2#4).wellFormed = true := by decide

/-- An ill-formed term is refused by name. -/
theorem test_drw_zero_refused : exec (.drw 1#4 2#4 0#4) base = .refused .malformed := rfl

theorem test_decode_control :
    decode 0x00EE#16 = .ok .ret ∧ decode 0x1ABC#16 = .ok (.jp 0xABC#12) ∧ decode 0x2ABC#16 = .ok (.call 0xABC#12) ∧
    decode 0x3A7C#16 = .ok (.seImm 0xA#4 0x7C#8) ∧ decode 0x4A7C#16 = .ok (.sneImm 0xA#4 0x7C#8) ∧
    decode 0x5AB0#16 = .ok (.seReg 0xA#4 0xB#4) ∧ decode 0x9AB0#16 = .ok (.sneReg 0xA#4 0xB#4) ∧
    decode 0xBABC#16 = .ok (.jpV0 0xABC#12) := by decide

theorem test_decode_alu :
    decode 0x6A7C#16 = .ok (.ldImm 0xA#4 0x7C#8) ∧ decode 0x7A7C#16 = .ok (.addImm 0xA#4 0x7C#8) ∧
    decode 0x8AB0#16 = .ok (.ldReg 0xA#4 0xB#4) ∧ decode 0x8AB1#16 = .ok (.orReg 0xA#4 0xB#4) ∧
    decode 0x8AB2#16 = .ok (.andReg 0xA#4 0xB#4) ∧ decode 0x8AB3#16 = .ok (.xorReg 0xA#4 0xB#4) ∧
    decode 0x8AB4#16 = .ok (.addReg 0xA#4 0xB#4) ∧ decode 0x8AB5#16 = .ok (.subReg 0xA#4 0xB#4) ∧
    decode 0x8AB6#16 = .ok (.shr 0xA#4 0xB#4) ∧ decode 0x8AB7#16 = .ok (.subn 0xA#4 0xB#4) ∧
    decode 0x8ABE#16 = .ok (.shl 0xA#4 0xB#4) ∧ decode 0xCA7C#16 = .ok (.rnd 0xA#4 0x7C#8) := by decide

theorem test_decode_index :
    decode 0xAABC#16 = .ok (.ldI 0xABC#12) ∧ decode 0xFA1E#16 = .ok (.addI 0xA#4) ∧ decode 0xFA29#16 = .ok (.ldF 0xA#4) ∧
    decode 0xFA33#16 = .ok (.ldB 0xA#4) ∧ decode 0xFA55#16 = .ok (.ldMemVx 0xA#4) ∧
    decode 0xFA65#16 = .ok (.ldVxMem 0xA#4) := by decide

theorem test_decode_display :
    decode 0x00E0#16 = .ok .cls ∧ decode 0xDAB5#16 = .ok (.drw 0xA#4 0xB#4 5#4) ∧
    decode 0xDAB0#16 = .ok (.drw16 0xA#4 0xB#4) := by decide

theorem test_decode_keys :
    decode 0xEA9E#16 = .ok (.skp 0xA#4) ∧ decode 0xEAA1#16 = .ok (.sknp 0xA#4) ∧ decode 0xFA07#16 = .ok (.ldVxDt 0xA#4) ∧
    decode 0xFA0A#16 = .ok (.ldVxK 0xA#4) ∧ decode 0xFA15#16 = .ok (.ldDtVx 0xA#4) ∧
    decode 0xFA18#16 = .ok (.ldStVx 0xA#4) := by decide

/-- The high byte lies first (R63, R90); one byte is not an instruction. -/
theorem test_decode_bytes :
    decodeBytes [0x12#8, 0x34#8, 0xFF#8] = .ok (.jp 0x234#12) ∧ decodeBytes [0x12#8] = .error .truncated := by decide

/-- Vectors E5 to E8. -/
theorem test_decode_unknown :
    decode 0x0000#16 = .error (.unknownOpcode 0x0000#16) ∧ decode 0x00FE#16 = .error (.unknownOpcode 0x00FE#16) ∧
    decode 0x812F#16 = .error (.unknownOpcode 0x812F#16) ∧ decode 0xE29F#16 = .error (.unknownOpcode 0xE29F#16) ∧
    decode 0xF075#16 = .error (.unknownOpcode 0xF075#16) ∧ decode 0xFFFF#16 = .error (.unknownOpcode 0xFFFF#16) := by decide

theorem test_decodeTableWord :
    decodeTableWord 16 0x8127 = some (.subn 1#4 2#4) ∧ decodeTableWord 16 0x0000 = none := by decide

/-! ### Fetch -/

/-- Vector E2: an odd address. -/
theorem test_fetch_odd : runs { base with pc := 0x201#16 } 0x60AB (fun t => t.reg 0#4 == 0xAB#8 && t.pc == 0x203#16) = true := by
  decide

/-- Vector E5. -/
theorem test_unknown_faults : faults base 0x0123 .unknownOpcode = true := by decide

/-! ### 40_control_flow -/

/-- CF1. -/
theorem test_ret : runs { base with pc := 0x210#16, sp := 1#8, stack := base.stack.set 0 0x206#16 } 0x00EE
    (fun t => t.pc == 0x206#16 && t.sp == 0#8 && t.stack[0]? == some 0x206#16) = true := by decide

/-- CF2. -/
theorem test_ret_empty : faults { base with pc := 0x210#16 } 0x00EE .stackUnderflow = true := by decide

/-- CF3. -/
theorem test_jp : runs { base with pc := 0x208#16 } 0x1208 (fun t => t.pc == 0x208#16) = true := by decide

/-- CF6: a return address past the end of memory. -/
theorem test_call : runs { base with pc := 0xFFE#16 } 0x2ABC
    (fun t => t.stack[0]? == some 0x1000#16 && t.sp == 1#8 && t.pc == 0xABC#16) = true := by decide

/-- CF5. -/
theorem test_call_full : faults { base with pc := 0x204#16, sp := 16#8 } 0x2300 .stackOverflow = true := by decide

/-- CF7, CF8. -/
theorem test_seImm :
    runs (withRegs { base with pc := 0x208#16 } [(3#4, 5#8)]) 0x3305 (fun t => t.pc == 0x20C#16) = true ∧
    runs (withRegs { base with pc := 0x208#16 } [(3#4, 4#8)]) 0x3305 (fun t => t.pc == 0x20A#16) = true := by decide

/-- CF9. -/
theorem test_sneImm :
    runs base 0x4000 (fun t => t.pc == 0x202#16) = true ∧ runs base 0x4001 (fun t => t.pc == 0x204#16) = true := by decide

/-- CF10. -/
theorem test_seReg :
    runs (withRegs base [(1#4, 7#8), (2#4, 7#8)]) 0x5120 (fun t => t.pc == 0x204#16) = true ∧
    runs (withRegs base [(1#4, 7#8), (2#4, 8#8)]) 0x5120 (fun t => t.pc == 0x202#16) = true := by decide

/-- CF11, CF12. -/
theorem test_sneReg :
    runs (withRegs base [(1#4, 7#8), (2#4, 8#8)]) 0x9120 (fun t => t.pc == 0x204#16) = true ∧
    runs (withRegs base [(1#4, 7#8)]) 0x9110 (fun t => t.pc == 0x202#16) = true := by decide

/-- CF15: the sum is not masked. -/
theorem test_jpV0 : runs (withRegs base [(0#4, 0xFF#8)]) 0xBFFF (fun t => t.pc == 0x10FE#16) = true := by decide

/-! ### 41_alu -/

/-- A1. -/
theorem test_ldImm : runs base 0x6A42 (fun t => t.reg 0xA#4 == 0x42#8) = true := by decide

/-- A2: no flag. -/
theorem test_addImm : runs (withRegs base [(0#4, 0xFF#8), (15#4, 9#8)]) 0x7002
    (fun t => t.reg 0#4 == 1#8 && t.reg 15#4 == 9#8) = true := by decide

/-- A4. -/
theorem test_ldReg : runs (withRegs base [(2#4, 9#8)]) 0x8120 (fun t => t.reg 1#4 == 9#8) = true := by decide

/-- The start of A5. -/
def a5 : State := withRegs base [(1#4, 0xC#8), (2#4, 0xA#8), (15#4, 7#8)]

theorem test_or : runs a5 0x8121 (fun t => t.reg 1#4 == 0xE#8 && t.reg 15#4 == 7#8) = true := by decide
theorem test_and : runs a5 0x8122 (fun t => t.reg 1#4 == 8#8 && t.reg 15#4 == 7#8) = true := by decide
theorem test_xor : runs a5 0x8123 (fun t => t.reg 1#4 == 6#8 && t.reg 15#4 == 7#8) = true := by decide

/-- A7. -/
theorem test_addReg : runs (withRegs base [(1#4, 0xFF#8), (2#4, 1#8)]) 0x8124
    (fun t => t.reg 1#4 == 0#8 && t.reg 15#4 == 1#8) = true := by decide

/-- The parameters with the other flag order, and with the other flag rule. -/
def flagLast : State := { base with cfg := { Config.default with vfOrder := .flagLast } }
def canonical : State := { base with cfg := { Config.default with subFlagRule := .canonical } }

/-- A12: x = F under both orders. -/
theorem test_addReg_vf :
    runs (withRegs base [(1#4, 1#8), (15#4, 0xFF#8)]) 0x8F14 (fun t => t.reg 15#4 == 0#8) = true ∧
    runs (withRegs flagLast [(1#4, 1#8), (15#4, 0xFF#8)]) 0x8F14 (fun t => t.reg 15#4 == 1#8) = true := by decide

/-- A14. -/
theorem test_subReg : runs (withRegs base [(1#4, 3#8), (2#4, 5#8)]) 0x8125
    (fun t => t.reg 1#4 == 0xFE#8 && t.reg 15#4 == 0#8) = true := by decide

/-- A15: equal operands under both rules. -/
theorem test_subReg_equal :
    runs (withRegs base [(1#4, 5#8), (2#4, 5#8)]) 0x8125 (fun t => t.reg 1#4 == 0#8 && t.reg 15#4 == 0#8) = true ∧
    runs (withRegs canonical [(1#4, 5#8), (2#4, 5#8)]) 0x8125 (fun t => t.reg 1#4 == 0#8 && t.reg 15#4 == 1#8) = true := by decide

/-- A19. -/
theorem test_shr : runs (withRegs base [(3#4, 5#8)]) 0x8306 (fun t => t.reg 3#4 == 2#8 && t.reg 15#4 == 1#8) = true := by decide

/-- E9: the y field is not read. -/
theorem test_shr_y : runs (withRegs base [(3#4, 4#8), (5#4, 0xFF#8)]) 0x8356
    (fun t => t.reg 3#4 == 2#8 && t.reg 15#4 == 0#8 && t.reg 5#4 == 0xFF#8) = true := by decide

/-- A16. -/
theorem test_subn :
    runs (withRegs base [(1#4, 3#8), (2#4, 5#8)]) 0x8127 (fun t => t.reg 1#4 == 2#8 && t.reg 15#4 == 0#8) = true ∧
    runs (withRegs canonical [(1#4, 3#8), (2#4, 5#8)]) 0x8127 (fun t => t.reg 1#4 == 2#8 && t.reg 15#4 == 1#8) = true := by decide

/-- A17. -/
theorem test_subn_borrow :
    runs (withRegs base [(1#4, 5#8), (2#4, 3#8)]) 0x8127 (fun t => t.reg 1#4 == 0xFE#8 && t.reg 15#4 == 1#8) = true ∧
    runs (withRegs canonical [(1#4, 5#8), (2#4, 3#8)]) 0x8127 (fun t => t.reg 1#4 == 0xFE#8 && t.reg 15#4 == 0#8) = true := by
  decide

/-- A23. -/
theorem test_shl : runs (withRegs base [(3#4, 0x81#8)]) 0x830E (fun t => t.reg 3#4 == 2#8 && t.reg 15#4 == 1#8) = true := by decide

/-- A25. -/
theorem test_shl_vf :
    runs (withRegs base [(15#4, 0x81#8)]) 0x8FFE (fun t => t.reg 15#4 == 2#8) = true ∧
    runs (withRegs flagLast [(15#4, 0x81#8)]) 0x8FFE (fun t => t.reg 15#4 == 1#8) = true := by decide

/-- What the draw leaves is not evaluated (it is free); `PC` and the count of draws are (R163). -/
theorem test_rnd : runs base 0xC300 (fun t => t.pc == 0x202#16 && t.draws == 1) = true := by decide

/-! ### 42_index_memory -/

/-- M1. -/
theorem test_ldI : runs base 0xA300 (fun t => t.i == 0x300#16) = true := by decide

/-- M3: the 16-bit wrap. -/
theorem test_addI : runs (withRegs { base with i := 0xFFFF#16 } [(0#4, 2#8)]) 0xF01E (fun t => t.i == 1#16) = true := by decide

/-- M5: not masked. -/
theorem test_ldF : runs (withRegs base [(0#4, 0xFF#8)]) 0xF029 (fun t => t.i == 0x4FB#16) = true := by decide

/-- M9: the last address in range. -/
theorem test_ldB : runs (withRegs { base with i := 0xFFD#16 } [(0#4, 9#8)]) 0xF033
    (fun t => t.mem.read 0xFFD == 0#8 && t.mem.read 0xFFE == 0#8 && t.mem.read 0xFFF == 9#8) = true := by decide

/-- M10, both policies. -/
theorem test_ldB_end :
    faults (withRegs { base with i := 0xFFE#16 } [(0#4, 0xFF#8)]) 0xF033 .memoryOutOfRange = true ∧
    runs (withRegs { base with i := 0xFFE#16, cfg := { Config.default with addrPolicy := .wrap } } [(0#4, 0xFF#8)]) 0xF033
      (fun t => t.mem.read 0xFFE == 2#8 && t.mem.read 0xFFF == 5#8 && t.mem.read 0 == 5#8) = true := by decide

/-- M11. -/
theorem test_ldMemVx :
    runs (withRegs { base with i := 0x400#16 } [(0#4, 1#8), (1#4, 2#8), (2#4, 3#8), (3#4, 4#8)]) 0xF255
      (fun t => t.mem.read 0x400 == 1#8 && t.mem.read 0x401 == 2#8 && t.mem.read 0x402 == 3#8 && t.mem.read 0x403 == 0#8
        && t.i == 0x400#16) = true := by decide

/-- M13. -/
theorem test_ldMemVx_end : faults { base with i := 0xFF1#16 } 0xFF55 .memoryOutOfRange = true := by decide

/-- M14. -/
theorem test_ldVxMem :
    runs (withBytes (withRegs { base with i := 0x300#16 } [(3#4, 0x33#8)])
        [(0x300, 1#8), (0x301, 2#8), (0x302, 3#8), (0x303, 4#8)]) 0xF265
      (fun t => t.reg 0#4 == 1#8 && t.reg 1#4 == 2#8 && t.reg 2#4 == 3#8 && t.reg 3#4 == 0x33#8 && t.i == 0x300#16) = true := by
  decide

/-- The fault of R197 past the end. -/
theorem test_ldVxMem_end : faults { base with i := 0xFF1#16 } 0xFF65 .memoryOutOfRange = true := by decide

/-! ### 43_display -/

/-- D1: the horizontal wrap. -/
theorem test_drw :
    runs (withBytes (withRegs { base with i := 0x300#16 } [(0#4, 0x3E#8)]) [(0x300, 0xFF#8)]) 0xD011
      (fun t => Screen.pixel t.screen 62 0 && Screen.pixel t.screen 63 0 && Screen.pixel t.screen 5 0
        && !Screen.pixel t.screen 6 0 && !Screen.pixel t.screen 64 0 && t.reg 15#4 == 0#8) = true := by decide

/-- D4: `VF` as both coordinates, then overwritten. -/
theorem test_drw_vf :
    runs (withBytes (withRegs { base with i := 0x300#16 } [(15#4, 0xA#8)]) [(0x300, 0xC0#8)]) 0xDFF1
      (fun t => Screen.pixel t.screen 10 10 && Screen.pixel t.screen 11 10 && !Screen.pixel t.screen 12 10
        && t.reg 15#4 == 0#8) = true := by decide

/-- D10: the left byte, then the right byte. -/
theorem test_drw16 :
    runs (withBytes { base with i := 0x300#16 } [(0x300, 0x80#8), (0x301, 1#8)]) 0xD010
      (fun t => Screen.pixel t.screen 0 0 && Screen.pixel t.screen 15 0 && !Screen.pixel t.screen 7 0
        && !Screen.pixel t.screen 8 0 && t.reg 15#4 == 0#8) = true := by decide

/-- D11. -/
theorem test_drw16_end : faults { base with i := 0xFE1#16 } 0xD010 .memoryOutOfRange = true := by decide

/-- D13 and L1-9. -/
theorem test_cls :
    runs (withRegs { base with screen := Vector.replicate 64 (BitVec.allOnes 128) } [(15#4, 7#8)]) 0x00E0
      (fun t => t.screen == Screen.blank && t.reg 15#4 == 7#8 && t.pc == 0x202#16) = true := by decide

/-! ### 44_timers_keys -/

/-- K1, K2. -/
theorem test_skp :
    runs (withRegs { base with keys := 8#16 } [(2#4, 3#8)]) 0xE29E (fun t => t.pc == 0x204#16) = true ∧
    runs (withRegs { base with keys := 8#16 } [(2#4, 4#8)]) 0xE29E (fun t => t.pc == 0x202#16) = true := by decide

/-- K5. -/
theorem test_skp_range : faults (withRegs base [(2#4, 0x10#8)]) 0xE29E .keyOutOfRange = true := by decide

/-- K3, K4. -/
theorem test_sknp :
    runs (withRegs { base with keys := 8#16 } [(2#4, 4#8)]) 0xE2A1 (fun t => t.pc == 0x204#16) = true ∧
    runs (withRegs { base with keys := 8#16 } [(2#4, 3#8)]) 0xE2A1 (fun t => t.pc == 0x202#16) = true := by decide

/-- The fault of R230 in SKNP. -/
theorem test_sknp_range : faults (withRegs base [(2#4, 0x10#8)]) 0xE2A1 .keyOutOfRange = true := by decide

/-- K6. -/
theorem test_ldVxDt : runs { base with dt := 0x10#8 } 0xF107 (fun t => t.reg 1#4 == 0x10#8) = true := by decide

/-- K9. -/
theorem test_ldVxK : runs (withRegs base [(5#4, 7#8)]) 0xF50A
    (fun t => t.wait == some 5#4 && t.pc == 0x202#16 && t.reg 5#4 == 7#8) = true := by decide

/-- K7. -/
theorem test_ldDtVx : runs (withRegs base [(0#4, 0x10#8)]) 0xF015 (fun t => t.dt == 0x10#8) = true := by decide

/-- K8. -/
theorem test_ldStVx : runs (withRegs base [(0#4, 2#8)]) 0xF018 (fun t => t.st == 2#8) = true := by decide

/-! ### 45_scheduler, 46_host_interface -/

/-- S16: the CPU tick comes first on a tie, and it is counted. -/
theorem test_tie_cpu_first : gives (step ready) (fun t => t.cpuTicks == 1#64 && t.timerTicks == 0#64 && t.pc == 0x200#16) = true := by
  decide

/-- S7: the faulting tick is not counted, and the record is that of R311. -/
theorem test_fault_record :
    runs { base with pc := 0x204#16 } 0x00EE
      (fun t => t.fault == some ⟨.stackUnderflow, 0x204#16, some 0x00EE#16⟩ && t.cpuTicks == 0#64 && t.pc == 0x204#16) = true := by
  decide

/-- S1. -/
theorem test_not_started : told State.reset (.advance 5#32) (fun t => t.reply == some (.err .notStarted) && !t.started) = true := by
  decide

/-- S3: the clock went back. -/
theorem test_skew :
    told { base with epoch := 1000#32, cpuTicks := 50#64, timerTicks := 7#64 } (.advance 500#32)
      (fun t => t.epoch == 500#32 && t.cpuTicks == 0#64 && t.timerTicks == 0#64) = true := by decide

/-- P5 step 2: the lowest pressed key. -/
theorem test_key_wait :
    told { base with wait := some 5#4, keys := 0x28#16 } (.advance 10#32)
      (fun t => t.reg 5#4 == 3#8 && t.wait == none) = true := by decide

/-- S11: the rates. -/
theorem test_rates :
    told { base with epoch := 5000#32, cpuTicks := 1250#64 } (.cpuRateHz 7500#32) (fun t => t.reply == some (.natural 625)) = true ∧
    told { base with epoch := 5000#32, timerTicks := 157#64 } (.timerRateHz 7500#32)
      (fun t => t.reply == some (.natural 78)) = true := by decide

/-- S13: both sides of the end of memory. -/
theorem test_write_program_byte :
    told State.reset (.writeProgramByte 0xDFF 0xAB#8) (fun t => t.mem.read 0xFFF == 0xAB#8 && t.reply == some .ok) = true ∧
    told State.reset (.writeProgramByte 0xE00 0xCD#8)
      (fun t => t.mem == [] && t.fault == none && t.reply == some (.err .outOfBoundsWrite)) = true := by decide

/-- S14: a start after a fault; the glyph "A" of the default font is loaded (M4). -/
theorem test_start :
    told { base with sp := 16#8, fault := some ⟨.stackOverflow, 0x200#16, some 0x2200#16⟩ } (.start 3000#32)
      (fun t => t.fault == none && t.sp == 0#8 && t.pc == 0x200#16 && t.epoch == 3000#32 && t.mem.read 0x32 == 0xF0#8
        && t.mem.read 0x33 == 0x90#8) = true := by decide

/-- D14. -/
theorem test_pixel :
    told { base with screen := Screen.flip Screen.blank 62 0 } (.pixel 62 0) (fun t => t.reply == some (.bool true)) = true ∧
    told base (.pixel 64 0) (fun t => t.reply == some (.bool false)) = true := by decide

/-- K8, S15. -/
theorem test_tone :
    told { base with st := 2#8 } .isToneActive (fun t => t.reply == some (.bool true)) = true ∧
    told base .isToneActive (fun t => t.reply == some (.bool false)) = true := by decide

/-- R290, R324: with no command the machine does nothing. -/
theorem test_idle : step State.reset = .next State.reset := rfl

/-- Decision D20: parameters out of range are refused. -/
theorem test_bad_config :
    step { base with cfg := { Config.default with cpuHz := 0 } } = .refused .badConfig ∧
    step { base with cfg := { Config.default with stackSize := 256 } } = .refused .badConfig := ⟨rfl, rfl⟩

/-! ### Witnesses: the hypotheses of every statement can be met, clause by clause, at the ends of their ranges -/

theorem witness_DecodeOfEncode : (Instr.drw 15#4 15#4 15#4).wellFormed = true ∧ (Instr.ldVxMem 15#4).wellFormed = true := by decide

theorem witness_EncodeOfDecode : decode 0xD001#16 = .ok (.drw 0#4 0#4 1#4) := by decide

theorem witness_OpcodeTableAndDecoderAgree :
    decode 0xD000#16 = .ok (.drw16 0#4 0#4) ∧ decode 0xF066#16 = .error (.unknownOpcode 0xF066#16) ∧
    (⟨"DRW_Vx__Vy__n", 0xD000, 0xF000, true⟩ : OpcodeRow) ∈ opcodeRows ∧
    (⟨"DRW_Vx__Vy__0", 0xD000, 0xF00F, false⟩ : OpcodeRow) ∈ opcodeRows ∧
    0xD000#16 &&& 0xF000#16 = 0xD000#16 ∧ 0xD000#16 &&& 0xF00F#16 = 0xD000#16 := by decide

/-- The words at the ends of each range of R97. -/
theorem witness_UnknownWordsFault_words :
    UnknownWord 0x0FFF#16 ∧ UnknownWord 0x5001#16 ∧ UnknownWord 0x900F#16 ∧ UnknownWord 0x8008#16 ∧ UnknownWord 0x800D#16 ∧
    UnknownWord 0x800F#16 ∧ UnknownWord 0xE000#16 ∧ UnknownWord 0xFFFF#16 := by
  refine ⟨?_, ?_, ?_, ?_, ?_, ?_, ?_, ?_⟩ <;> (unfold UnknownWord; decide)

/-- Their neighbours that are instructions. -/
theorem witness_UnknownWordsFault_neighbours :
    ¬ UnknownWord 0x00EE#16 ∧ ¬ UnknownWord 0x1000#16 ∧ ¬ UnknownWord 0x8007#16 ∧ ¬ UnknownWord 0x800E#16 := by
  refine ⟨?_, ?_, ?_, ?_⟩ <;> (unfold UnknownWord; decide)

theorem witness_UnknownWordsFault :
    CpuDue (base.withFetchWord 16 0x0FFF) 1#32 ∧ (base.withFetchWord 16 0x0FFF).wait = none ∧
    (base.withFetchWord 16 0x0FFF).fetch = some 0x0FFF#16 ∧ UnknownWord 0x0FFF#16 := by
  unfold CpuDue Advancing UnknownWord
  decide

/-- Vector E4: the last address a fetch can use. -/
def atEnd : State := State.withFetchWord { base with pc := 0xFFE#16 } 16 0x7001

theorem witness_StepRunsTheDecodedInstruction :
    CpuDue atEnd 1#32 ∧ atEnd.wait = none ∧ atEnd.pc.toNat ≤ 4094 ∧
    (0x7001#16).toNat = (Memory.read atEnd.mem atEnd.pc.toNat).toNat * 256 + (Memory.read atEnd.mem (atEnd.pc.toNat + 1)).toNat ∧
    decode 0x7001#16 = .ok (.addImm 0#4 1#8) := by
  unfold CpuDue Advancing
  decide

theorem witness_FetchPastTheEndFaults :
    CpuDue { ready with pc := 0xFFF#16 } 1#32 ∧ ({ ready with pc := 0xFFF#16 } : State).wait = none ∧
    4094 < ({ ready with pc := 0xFFF#16 } : State).pc.toNat := by
  unfold CpuDue Advancing
  decide

/-- A store over the last word of memory, from the word before it. -/
theorem witness_StoresAreSeenByTheNextFetch :
    MemCanonical { base with pc := 0xFFC#16, i := 0xFFE#16 } ∧ DataInRange { base with pc := 0xFFC#16, i := 0xFFE#16 } (1#4).toNat ∧
    1 ≤ (1#4).toNat ∧ ({ base with pc := 0xFFC#16, i := 0xFFE#16 } : State).pc.toNat ≤ 4092 ∧
    State.access { base with pc := 0xFFC#16, i := 0xFFE#16 } 0 = 0xFFC + 2 ∧
    State.access { base with pc := 0xFFC#16, i := 0xFFE#16 } 1 = 0xFFC + 3 := by
  unfold MemCanonical DataInRange
  decide

/-- An empty, a full and an almost full stack. -/
def fullStack : State := { base with sp := 16#8, stack := List.replicate 16 0x202#16 }
def almostFull : State := { base with sp := 15#8, stack := List.replicate 16 0x202#16 }

theorem witness_ReturnPopsTheStack :
    base.sp.toNat = 0 ∧ (0 < fullStack.sp.toNat ∧ fullStack.sp.toNat ≤ fullStack.stack.length) := by decide

theorem witness_CallPushesTheReturnAddress :
    fullStack.sp.toNat = fullStack.cfg.stackSize ∧
    (almostFull.cfg.valid = true ∧ StackBounded almostFull ∧ almostFull.sp.toNat < almostFull.cfg.stackSize) := by
  unfold StackBounded
  decide

/-- The state right after the CALL, and one that differs from it, have the stack as the CALL left it. -/
theorem witness_ReturnUndoesCall :
    almostFull.cfg.valid = true ∧ StackBounded almostFull ∧ almostFull.sp.toNat < almostFull.cfg.stackSize ∧
    ∃ t r : State, exec (.call 0x300#12) almostFull = .next t ∧ r.stack = t.stack ∧ r.sp = t.sp ∧ r.pc ≠ t.pc :=
  ⟨by decide, by unfold StackBounded; decide, by decide, _,
    { fullStack with stack := almostFull.stack.set 15 0x202#16 }, rfl, by decide, by decide, by decide⟩

/-- The lowest target past 4094, by each jump. -/
theorem witness_JumpsSetPc : 4094 < (0xFFF#12).toNat + (base.reg 0#4).toNat ∧
    4094 < (0xF00#12).toNat + ((withRegs base [(0#4, 0xFF#8)]).reg 0#4).toNat := by decide

/-- The highest return target, 0x1000 (CF6). -/
theorem witness_ReturnPopsTheStack_past :
    gives (exec .ret { base with sp := 1#8, stack := base.stack.set 0 0x1000#16 }) (fun t => decide (4094 < t.pc.toNat)) = true := by
  decide

theorem witness_SkipsTestTheirCondition_nibble : (1#4 : BitVec 4) ≠ 0#4 ∧ (15#4 : BitVec 4) ≠ 0#4 := by decide

theorem witness_SkipsTestTheirCondition :
    (withRegs base [(3#4, 5#8)]).reg 3#4 = 5#8 ∧ (withRegs base [(3#4, 5#8)]).reg 3#4 ≠ 4#8 ∧
    (withRegs base [(3#4, 5#8)]).reg 3#4 ≠ (withRegs base [(3#4, 5#8)]).reg 4#4 ∧ base.reg 3#4 = base.reg 4#4 := by decide

/-- A flagged write to another register, and to `VF` under each order. -/
theorem witness_AddSetsTheCarry_orders :
    (14#4 : RegNum) ≠ 15#4 ∧ base.cfg.vfOrder = .resultLast ∧ flagLast.cfg.vfOrder = .flagLast := by decide

/-- Equal operands and unequal ones under each flag rule. -/
theorem witness_SubtractionsSetTheFlag :
    (base.cfg.subFlagRule = .document ∧ (base.cfg.subFlagRule = .document →
        0 = (if (base.reg 1#4).toNat > (base.reg 2#4).toNat then 1 else 0) ∧ (0 : Nat) = 0) ∧
      (base.cfg.subFlagRule = .canonical → 0 = (if (base.reg 1#4).toNat ≥ (base.reg 2#4).toNat then 1 else 0) ∧
        0 = (if (base.reg 2#4).toNat ≥ (base.reg 1#4).toNat then 1 else 0))) ∧
    (canonical.cfg.subFlagRule = .canonical ∧ (canonical.cfg.subFlagRule = .document →
        1 = (if (canonical.reg 1#4).toNat > (canonical.reg 2#4).toNat then 1 else 0) ∧ (1 : Nat) = 1) ∧
      (canonical.cfg.subFlagRule = .canonical →
        1 = (if (canonical.reg 1#4).toNat ≥ (canonical.reg 2#4).toNat then 1 else 0) ∧
        1 = (if (canonical.reg 2#4).toNat ≥ (canonical.reg 1#4).toNat then 1 else 0))) := by decide

/-- The address policy WRAP. -/
def wrapping : State := { base with i := 0xFFE#16, cfg := { Config.default with addrPolicy := .wrap } }

theorem witness_DataAddressesComeFromTheIndex :
    base.cfg.addrPolicy = .fault ∧ wrapping.cfg.addrPolicy = .wrap ∧ DataInRange base 4095 ∧ ¬ DataInRange base 4096 ∧
    DataInRange wrapping 4096 := by
  unfold DataInRange
  decide

/-- The last index in range and the first one out of it (M9, M10), and a byte that is not stored to. -/
theorem witness_BcdIsStored :
    MemCanonical base ∧ DataInRange { base with i := 0xFFD#16 } 2 ∧ ¬ DataInRange { base with i := 0xFFE#16 } 2 ∧
    DataInRange wrapping 2 ∧ (0xFFC ≠ State.access { base with i := 0xFFD#16 } 0 ∧
      0xFFC ≠ State.access { base with i := 0xFFD#16 } 1 ∧ 0xFFC ≠ State.access { base with i := 0xFFD#16 } 2) := by
  unfold MemCanonical DataInRange
  decide

/-- M12, M13: the same for sixteen registers. -/
theorem witness_RegistersAreStored :
    MemCanonical base ∧ DataInRange { base with i := 0xFF0#16 } (15#4).toNat ∧ ¬ DataInRange { base with i := 0xFF1#16 } (15#4).toNat ∧
    (∀ k, k ≤ (15#4).toNat → 0xFEF ≠ State.access { base with i := 0xFF0#16 } k) := by
  unfold MemCanonical DataInRange
  decide

theorem witness_RegistersAreLoaded :
    DataInRange { base with i := 0xFF0#16 } (15#4).toNat ∧ ¬ DataInRange { base with i := 0xFF1#16 } (15#4).toNat ∧
    (15#4 : RegNum).toNat ≤ (15#4 : RegNum).toNat ∧ ¬ (15#4 : RegNum).toNat ≤ (14#4 : RegNum).toNat := by
  unfold DataInRange
  decide

/-- D7, D8. -/
theorem witness_SpriteIsDrawn :
    (15#4 : BitVec 4) ≠ 0#4 ∧ DataInRange { base with i := 0xFF1#16 } ((15#4).toNat - 1) ∧
    ¬ DataInRange { base with i := 0xFF2#16 } ((15#4).toNat - 1) := by
  unfold DataInRange
  decide

/-- A sprite of one pixel, drawn on a clear screen, and drawn where it collides. -/
def dot : State := withBytes { base with i := 0x300#16 } [(0x300, 0x80#8)]
def dotOn : State := { dot with screen := Screen.flip Screen.blank 0 0 }

/-- The pixels a sprite lands on. -/
def dotLands (s : State) : Nat → Nat → Prop :=
  Lands s.res (s.reg 0#4).toNat (s.reg 1#4).toNat 8 1 (fun c r => (Memory.read s.mem (s.access r)).getLsbD (7 - c))

theorem dotLands_zero (s : State) (h : s = dot ∨ s = dotOn) : dotLands s 0 0 := by
  refine ⟨0, 0, ?_⟩
  rcases h with rfl | rfl <;> decide

/-- Each case of a draw: a pixel landed on, one not landed on, a collision, no collision. -/
theorem witness_SpriteIsDrawn_cases :
    DataInRange dot 0 ∧ dotLands dot 0 0 ∧ ¬ dotLands dot 64 0 ∧
    (∃ X Y, dotLands dotOn X Y ∧ Screen.pixel dotOn.screen X Y = true) ∧
    ¬ ∃ X Y, dotLands dot X Y ∧ Screen.pixel dot.screen X Y = true := by
  refine ⟨by unfold DataInRange; decide, dotLands_zero _ (.inl rfl), ?_, ⟨0, 0, dotLands_zero _ (.inr rfl), by decide⟩, ?_⟩
  · rintro ⟨c, r, -, -, -, h, -⟩
    have h64 : resWidth dot.res = 64 := rfl
    rw [h64] at h
    omega
  · rintro ⟨X, Y, -, h⟩
    have hb : dot.screen = Screen.blank := rfl
    rw [hb, Laws.pixel_blank] at h
    exact Bool.noConfusion h

/-- D11 of the vectors: the last index in range and the first out of it. -/
theorem witness_LargeSpriteIsDrawn : DataInRange { base with i := 0xFE0#16 } 31 ∧ ¬ DataInRange { base with i := 0xFE1#16 } 31 := by
  unfold DataInRange
  decide

/-- Both columns at the seam of a large sprite's row: vector D10's bytes with the two middle bits. -/
theorem witness_LargeSpriteIsDrawn_seam :
    (7 < 8 ∧ (Memory.read (withBytes base [(0, 1#8), (1, 0x80#8)]).mem 0).getLsbD (7 - 7) = true) ∧
    (¬ 8 < 8 ∧ (Memory.read (withBytes base [(0, 1#8), (1, 0x80#8)]).mem 1).getLsbD (15 - 8) = true) := by decide

theorem witness_DrawingTwiceErases :
    (1#4 : BitVec 4) ≠ 0#4 ∧ (0#4 : RegNum) ≠ 15#4 ∧ (1#4 : RegNum) ≠ 15#4 ∧ DataInRange dot ((1#4).toNat - 1) ∧
    (∃ r, r < (1#4).toNat ∧ Memory.read dot.mem (dot.access r) ≠ 0#8) ∧
    gives (exec (.drw 0#4 1#4 1#4) dot) (fun t => t.reg 15#4 == 0#8) = true :=
  ⟨by decide, by decide, by decide, by unfold DataInRange; decide, ⟨0, by decide⟩, by decide⟩

/-- Key numbers 15 and 16, key 15 pressed and not. -/
theorem witness_KeySkipsReadTheKeys :
    15 < ((withRegs base [(2#4, 16#8)]).reg 2#4).toNat ∧ ((withRegs base [(2#4, 15#8)]).reg 2#4).toNat ≤ 15 ∧
    (0x8000#16).getLsbD ((withRegs base [(2#4, 15#8)]).reg 2#4).toNat = true ∧
    base.keys.getLsbD ((withRegs base [(2#4, 15#8)]).reg 2#4).toNat = false := by decide

/-- A destination, and `VF` as a flag. -/
theorem witness_RegisterWritersAreTheListed :
    (∃ t, exec (.ldImm 14#4 1#8) base = .next t ∧ t.reg 14#4 ≠ base.reg 14#4) ∧
    ∃ t, exec (.addReg 1#4 2#4) (withRegs base [(1#4, 0xFF#8), (2#4, 1#8)]) = .next t ∧
      t.reg 15#4 ≠ (withRegs base [(1#4, 0xFF#8), (2#4, 1#8)]).reg 15#4 :=
  ⟨⟨_, rfl, by decide⟩, ⟨_, rfl, by decide⟩⟩

/-- An instruction on none of the lists. -/
theorem witness_OtherStateWritersAreTheListed :
    (∃ t, exec (.jp 0x300#12) base = .next t) ∧ (Instr.jp 0x300#12).mnemonic ∉ ["LD_B__Vx", "LD__I___Vx"] ∧
    (Instr.jp 0x300#12).mnemonic ∉ ["CALL_nnn", "RET"] ∧ (Instr.jp 0x300#12).mnemonic ≠ "RND_Vx__kk" :=
  ⟨⟨_, rfl⟩, by decide, by decide, by decide⟩

/-- Both modes, and rates at the ends of their range. -/
theorem witness_DeadlinesGrowWithEveryTick :
    base.cfg.deadlineMode = .integerPeriod ∧
    ({ base with cfg := { Config.default with deadlineMode := .exactRatio } } : State).cfg.deadlineMode = .exactRatio ∧
    (1 ≤ 1 ∧ 1 ≤ 1000 ∧ 1 ∣ 1000) ∧ (1 ≤ 1000 ∧ 1000 ≤ 1000 ∧ 1000 ∣ 1000) := by decide

/-- A latched fault. -/
def latched : State := { base with fault := some ⟨.stackOverflow, 0x200#16, some 0x2200#16⟩ }

theorem witness_AdvanceIsRefusedByTheGuards :
    (Commanded { State.reset with pending := [.advance 5#32] } (.advance 5#32) [] ∧
      ({ State.reset with pending := [.advance 5#32] } : State).started = false) ∧
    (Commanded { latched with pending := [.advance 5#32] } (.advance 5#32) [] ∧
      ({ latched with pending := [.advance 5#32] } : State).started = true ∧
      ({ latched with pending := [.advance 5#32] } : State).fault = some ⟨.stackOverflow, 0x200#16, some 0x2200#16⟩) := by
  unfold Commanded
  decide

/-- A started machine with an `advance(now)` coming. -/
def asked (s : State) (now : Millis) : State := { s with pending := [.advance now] }

/-- The clock at `EPOCH` and just before it; no wait, no key, and a wait with only key 15 pressed. -/
theorem witness_AdvanceBeginsWithSkewAndKeyWait :
    (Commanded (asked { base with epoch := 5#32 } 4#32) (.advance 4#32) [] ∧ base.started = true ∧ base.fault = none ∧
      (4#32).toNat < (5#32).toNat ∧ base.wait = none) ∧
    (Commanded (asked { base with epoch := 5#32, wait := some 5#4 } 5#32) (.advance 5#32) [] ∧
      (5#32).toNat ≤ (5#32).toNat ∧ base.keys = 0#16) ∧
    (Commanded (asked { base with wait := some 5#4, keys := 0x8000#16 } 5#32) (.advance 5#32) [] ∧ 0x8000#16 ≠ 0#16) := by
  unfold Commanded
  decide

theorem witness_SkewedAdvancePerformsNoTick :
    Commanded (asked { base with epoch := 5#32 } 4#32) (.advance 4#32) [] ∧
    (asked { base with epoch := 5#32 } 4#32).started = true ∧ (asked { base with epoch := 5#32 } 4#32).fault = none ∧
    (4#32).toNat < (asked { base with epoch := 5#32 } 4#32).epoch.toNat ∧
    ((asked { base with epoch := 5#32 } 4#32).wait = none ∨ (asked { base with epoch := 5#32 } 4#32).keys = 0#16) := by
  unfold Commanded
  decide

/-- L1-3 at its end: at 500 Hz the 26th CPU deadline is 50. -/
theorem witness_SecondAdvanceDoesNothing :
    Commanded (asked { base with cpuTicks := 25#64, timerTicks := 4#64 } 50#32) (.advance 50#32) [] ∧
    (asked { base with cpuTicks := 25#64, timerTicks := 4#64 } 50#32).started = true ∧
    (asked { base with cpuTicks := 25#64, timerTicks := 4#64 } 50#32).fault = none ∧
    (asked { base with cpuTicks := 25#64, timerTicks := 4#64 } 50#32).wait = none ∧
    (asked { base with cpuTicks := 25#64, timerTicks := 4#64 } 50#32).epoch.toNat ≤ (50#32).toNat ∧
    (50#32).toNat ≤ (asked { base with cpuTicks := 25#64, timerTicks := 4#64 } 50#32).cpuDeadline ∧
    (50#32).toNat ≤ (asked { base with cpuTicks := 25#64, timerTicks := 4#64 } 50#32).timerDeadline := by
  unfold Commanded
  decide

/-- Only the timer is due; nothing is due. -/
def timerReady : State := { ready with cpuTicks := 1#64, dt := 1#8, st := 0#8 }
def doneReady : State := { ready with epoch := 1#32 }

theorem witness_TicksComeInDeadlineOrder :
    (Advancing ready 1#32 ∧ gives (step ready) (fun t => t.cpuTicks != ready.cpuTicks) = true) ∧
    (Advancing timerReady 1#32 ∧ gives (step timerReady) (fun t => t.timerTicks != timerReady.timerTicks) = true) ∧
    (Advancing doneReady 1#32 ∧ gives (step doneReady) (fun t => t.advancing == none) = true) := by
  unfold Advancing
  decide

theorem witness_WaitingTickOnlyCounts : CpuDue { ready with wait := some 5#4 } 1#32 ∧
    ({ ready with wait := some 5#4 } : State).wait = some 5#4 := by
  unfold CpuDue Advancing
  decide

theorem witness_TimerTickCountsDown : TimerDue timerReady 1#32 := by
  unfold TimerDue Advancing
  decide

/-- A fault of an instruction, and of the fetch. -/
theorem witness_FaultingTickCommitsNothing :
    (CpuDue (base.withFetchWord 16 0x00EE) 1#32 ∧ (base.withFetchWord 16 0x00EE).wait = none ∧
      gives (step (base.withFetchWord 16 0x00EE)) (fun t => t.fault != none) = true) ∧
    (CpuDue { ready with pc := 0xFFF#16 } 1#32 ∧ gives (step { ready with pc := 0xFFF#16 }) (fun t => t.fault != none) = true) := by
  unfold CpuDue Advancing
  decide

theorem witness_AdvanceReturnsItsResult :
    (({ latched with advancing := some 5#32 } : State).cfg.valid = true ∧
      ({ latched with advancing := some 5#32 } : State).fault = some ⟨.stackOverflow, 0x200#16, some 0x2200#16⟩) ∧
    (doneReady.cfg.valid = true ∧ doneReady.advancing = some 1#32 ∧ doneReady.fault = none ∧
      (1#32).toNat ≤ doneReady.cpuDeadline ∧ (1#32).toNat ≤ doneReady.timerDeadline) := by decide

theorem witness_ReanchoringIsNeverDue :
    Advancing ready 1#32 ∧ ready.cpuDeadline < (1#32).toNat ∧ ready.timerDeadline < (1#32).toNat := by
  unfold Advancing
  decide

theorem witness_AdvanceTerminates : ready.cfg.valid = true ∧ StackBounded ready ∧ ready.advancing = some 1#32 := by
  unfold StackBounded
  decide

/-- The last moment of the clock. -/
theorem witness_CountersStayBounded :
    CountersBounded { ready with epoch := 0xFFFFFFFE#32, advancing := some 0xFFFFFFFF#32 } ∧
    gives (step { ready with epoch := 0xFFFFFFFE#32, advancing := some 0xFFFFFFFF#32 }) (fun t => t.cpuTicks == 1#64) = true := by
  unfold CountersBounded
  decide

theorem witness_PowerOnState : Commanded { latched with pending := [.alloc] } .alloc [] := by
  unfold Commanded
  decide

/-- A start without and with a large font; the last byte of each font. -/
def bigFont : State :=
  { base with cfg := { Config.default with fontLarge := some (Vector.replicate 160 1#8) }, pending := [.start 7#32] }

theorem witness_StartBeginsAFreshRun :
    Commanded { latched with pending := [.start 7#32] } (.start 7#32) [] ∧ MemCanonical { latched with pending := [.start 7#32] } ∧
    latched.cfg.fontLarge = none := ⟨⟨rfl, rfl, rfl⟩, rfl, rfl⟩

theorem witness_StartBeginsAFreshRun_large :
    Commanded bigFont (.start 7#32) [] ∧ MemCanonical bigFont ∧ bigFont.cfg.fontLarge = some (Vector.replicate 160 1#8) :=
  ⟨⟨rfl, rfl, rfl⟩, rfl, rfl⟩

theorem witness_ProgramByteIsWrittenOrRefused :
    (Commanded { base with pending := [.writeProgramByte 0xE00 1#8] } (.writeProgramByte 0xE00 1#8) [] ∧ 4096 ≤ 0x200 + 0xE00) ∧
    (Commanded { base with pending := [.writeProgramByte 0xDFF 1#8] } (.writeProgramByte 0xDFF 1#8) [] ∧ 0x200 + 0xDFF < 4096 ∧
      MemCanonical { base with pending := [.writeProgramByte 0xDFF 1#8] }) := by
  unfold Commanded MemCanonical
  decide

theorem witness_SetKeysReplacesTheMask :
    Commanded { base with pending := [.setKeys 0xFFFF#16], keys := 1#16, wait := some 5#4 } (.setKeys 0xFFFF#16) [] := by
  unfold Commanded
  decide

/-- Each query; just before a whole second and at it. -/
theorem witness_QueriesChangeNothing :
    (Commanded { base with pending := [.pixel 63 31] } (.pixel 63 31) [] ∧ base.scrollX = 0 ∧ base.scrollY = 0) ∧
    Commanded { base with pending := [.isToneActive] } .isToneActive [] ∧
    (Commanded { base with pending := [.cpuRateHz 999#32] } (.cpuRateHz 999#32) [] ∧ (999#32).toNat < base.epoch.toNat + 1000) ∧
    (Commanded { base with pending := [.cpuRateHz 1000#32] } (.cpuRateHz 1000#32) [] ∧
      base.epoch.toNat + 1000 ≤ (1000#32).toNat) ∧
    (Commanded { base with pending := [.timerRateHz 999#32] } (.timerRateHz 999#32) [] ∧
      (999#32).toNat < base.epoch.toNat + 1000) ∧
    (Commanded { base with pending := [.timerRateHz 1000#32] } (.timerRateHz 1000#32) [] ∧
      base.epoch.toNat + 1000 ≤ (1000#32).toNat) := by
  unfold Commanded
  decide

theorem witness_AdvanceIsNotInterrupted :
    ({ ready with pending := [.setKeys 1#16] } : State).advancing = some 1#32 ∧
    gives (step { ready with pending := [.setKeys 1#16] }) (fun _ => true) = true := by decide

/-- The fault stays through a command, and goes with `start` and with `alloc`. -/
theorem witness_OnlyStartClearsAFault :
    latched.fault = some ⟨.stackOverflow, 0x200#16, some 0x2200#16⟩ ∧
    told latched (.setKeys 1#16) (fun t => t.fault == latched.fault) = true ∧
    told latched (.start 7#32) (fun t => t.fault == none) = true ∧ told latched .alloc (fun t => t.fault == none) = true := by decide

theorem witness_MachineNeverStops : fullStack.cfg.valid = true ∧ StackBounded fullStack := by
  unfold StackBounded
  decide

/-- A step that stores into the last byte. -/
theorem witness_MemoryStaysCanonical :
    MemCanonical (State.withFetchWord (withRegs { base with i := 0xFFF#16 } [(0#4, 1#8)]) 16 0xF055) ∧
    runs (withRegs { base with i := 0xFFF#16 } [(0#4, 1#8)]) 0xF055 (fun t => t.mem.read 0xFFF == 1#8) = true := by
  unfold MemCanonical
  decide

theorem pcBounded_of {s : State} (h1 : s.pc.toNat ≤ 0x10FE) (h2 : s.stack.all (fun a => decide (a.toNat ≤ 0x1000)) = true) :
    PcBounded s := ⟨h1, fun a ha => of_decide_eq_true (List.all_eq_true.mp h2 a ha)⟩

/-- The highest `PC` (CF15) and the highest return address (CF6). -/
theorem witness_PcStaysBounded :
    PcBounded (State.withFetchWord (withRegs base [(0#4, 0xFF#8)]) 16 0xBFFF) ∧
    runs (withRegs base [(0#4, 0xFF#8)]) 0xBFFF (fun t => t.pc == 0x10FE#16) = true ∧
    PcBounded (State.withFetchWord { base with pc := 0xFFE#16 } 16 0x2ABC) :=
  ⟨pcBounded_of (by decide) (by decide), by decide, pcBounded_of (by decide) (by decide)⟩

theorem screenConfined_of_blank {s : State} (h : s.screen = Screen.blank) : ScreenConfined s := by
  intro X Y _
  rw [h, Laws.pixel_blank]

/-- A step that draws at the right edge (D1). -/
def edge : State := withBytes (withRegs { base with i := 0x300#16 } [(0#4, 0x3E#8)]) [(0x300, 0xFF#8)]

theorem edge_blank : (edge.withFetchWord 16 0xD011).screen = Screen.blank := by decide

theorem witness_ScreenStaysConfined :
    ScreenConfined (edge.withFetchWord 16 0xD011) ∧ DisplayConfigured (edge.withFetchWord 16 0xD011) ∧
    runs edge 0xD011 (fun t => Screen.pixel t.screen 0 0) = true :=
  ⟨screenConfined_of_blank edge_blank, by unfold DisplayConfigured; decide, by decide⟩

theorem witness_RunsOnlyAfterStart : RunStarted ready ∧ gives (step ready) (fun t => t.advancing == some 1#32) = true := by
  unfold RunStarted
  decide

/-! ### withFetchWord -/

/-- Right after reset, the step that follows withFetchWord runs the word placed. -/
theorem test_withFetchWord_reset :
    runs State.reset 0x6A42 (fun t => t.reg 0xA#4 == 0x42#8 && t.cpuTicks == 1#64) = true := by decide

end Sys2Proof.Machine.Tests
end

section
/-!
PROOFS of the family 30_encoding: which words the decoder refuses, and what a due CPU tick does with the word at `PC`.
-/

namespace Sys2Proof.Machine.Proofs

open Sys2Proof.Machine.Laws

/-! ### A due CPU tick with no key awaited -/

/-- R259, R261: the tick is the counted instruction step. -/
theorem step_of_cpuDue_of_not_waiting {s : State} {now : Millis} (h : CpuDue s now) (hw : s.wait = none) :
    step s = countIfDone (instructionStep s) := by
  rw [step_cpuDue h, cpuTick, hw]

theorem instructionStep_of_fetch_none {s : State} (hf : s.fetch = none) :
    instructionStep s = .next (faulted s .fetchOutOfRange none) := by
  rw [instructionStep, hf, raise_eq_faulted]

theorem instructionStep_of_decode_error {s : State} {op : Word} {e : DecodeError} (hf : s.fetch = some op)
    (hd : decode op = .error e) : instructionStep s = .next (faulted s .unknownOpcode (some op)) := by
  simp only [instructionStep, hf, hd, raise_eq_faulted]

theorem instructionStep_of_decode_ok {s : State} {op : Word} {i : Instr} (hf : s.fetch = some op)
    (hd : decode op = .ok i) : instructionStep s = exec i s := by
  simp only [instructionStep, hf, hd]

/-- R262: a tick that raised is not counted. -/
theorem countIfDone_faulted (s : State) (k : FaultKind) (op : Option Word) :
    countIfDone (.next (faulted s k op)) = .next (faulted s k op) := rfl

/-- R261: only the next state of an instruction that did not raise is counted. -/
theorem countIfDone_next (t : State) :
    countIfDone (.next t) = .next (if t.fault = none then { t with cpuTicks := t.cpuTicks + 1#64 } else t) := by
  cases h : t.fault <;> simp [countIfDone, State.countCpu, h]

/-- R90: the fetched word is the one whose number has the byte at `PC` above the byte at `PC + 1`. -/
theorem fetch_eq_some_of_toNat {s : State} {op : Word} (hpc : s.pc.toNat ≤ 4094)
    (hop : op.toNat = (Memory.read s.mem s.pc.toNat).toNat * 256 + (Memory.read s.mem (s.pc.toNat + 1)).toNat) :
    s.fetch = some op :=
  fetch_eq_some.mpr ⟨hpc, BitVec.eq_of_toNat_eq ((toNat_wordOfBytes _ _).trans hop.symm)⟩

/-! ### The words the decoder refuses -/

/-- R96, R97: the words with major opcode 8 that are refused, by their low nibble. -/
theorem decodeAlu_eq_error_iff (op : Word) :
    decodeAlu op = .error (.unknownOpcode op) ↔ op.toNat % 16 ∈ [8, 9, 0xA, 0xB, 0xC, 0xD, 0xF] := by
  rw [← toNat_fieldN]
  unfold decodeAlu
  generalize fieldN op = n
  split
  case h_10 =>
    simp only [true_iff]
    revert n
    decide
  all_goals simp

/-- R96, R97: the words with major opcode F that are refused, by their low byte. -/
theorem decodeMisc_eq_error_iff (op : Word) :
    decodeMisc op = .error (.unknownOpcode op) ↔
      op.toNat % 256 ∉ [0x07, 0x0A, 0x15, 0x18, 0x1E, 0x29, 0x33, 0x55, 0x65] := by
  rw [← toNat_fieldKK]
  unfold decodeMisc
  generalize fieldKK op = kk
  split
  case h_10 =>
    simp only [true_iff]
    revert kk
    decide
  all_goals simp

/-- The list of R97, read by the major opcode. -/
theorem unknownWord_iff_fieldTop (op : Word) : UnknownWord op ↔
    (fieldTop op = 0x0#4 ∧ op ≠ 0x00E0#16 ∧ op ≠ 0x00EE#16) ∨
    ((fieldTop op = 0x5#4 ∨ fieldTop op = 0x9#4) ∧ fieldN op ≠ 0#4) ∨
    (fieldTop op = 0x8#4 ∧ decodeAlu op = .error (.unknownOpcode op)) ∨
    (fieldTop op = 0xE#4 ∧ fieldKK op ≠ 0x9E#8 ∧ fieldKK op ≠ 0xA1#8) ∨
    (fieldTop op = 0xF#4 ∧ decodeMisc op = .error (.unknownOpcode op)) := by
  simp [UnknownWord, decodeAlu_eq_error_iff, decodeMisc_eq_error_iff, BitVec.toNat_eq, toNat_fieldTop,
    toNat_fieldN, toNat_fieldKK]

/-- R97: the decoder refuses exactly the words of the rule's list. -/
theorem decode_eq_error_iff (op : Word) : decode op = .error (.unknownOpcode op) ↔ UnknownWord op := by
  rw [unknownWord_iff_fieldTop]
  unfold decode
  split
  -- the major opcodes 0, 5, 9, E, of which some words decode
  case h_1 | h_6 | h_10 | h_15 => simp [*, ite_eq_iff]
  -- the major opcodes 8 and F, each with its own table
  case h_9 | h_16 => simp [*]
  -- not reached: the sixteen values of a nibble are all named
  case h_17 =>
    generalize fieldTop op = t at *
    exfalso
    revert t
    decide
  -- the major opcodes of which every word decodes
  all_goals simp [*, ite_eq_iff]

/-- Settles O5: the decoder's refusals, read by the major opcode, are the list of R97; the tick raises without being counted. -/
theorem unknownWordsFault : Obligations.UnknownWordsFault := by
  unfold Obligations.UnknownWordsFault
  refine ⟨decode_eq_error_iff, fun s now op hdue hw hf hu => ?_⟩
  have hd : decode op = .error (.unknownOpcode op) := (decode_eq_error_iff op).mpr hu
  rw [step_of_cpuDue_of_not_waiting hdue hw, instructionStep_of_decode_error hf hd, countIfDone_faulted]

/-- Settles O6: the bytes at `PC` are the fetched word, so the counted instruction step is the counted `exec`. -/
theorem stepRunsTheDecodedInstruction : Obligations.StepRunsTheDecodedInstruction := by
  unfold Obligations.StepRunsTheDecodedInstruction
  intro s now op i hdue hw hpc hop hd
  rw [step_of_cpuDue_of_not_waiting hdue hw, instructionStep_of_decode_ok (fetch_eq_some_of_toNat hpc hop) hd]
  cases exec i s with
  | next t => exact countIfDone_next t
  | fault r => rfl
  | refused r => rfl

/-- Settles O7: no fetch is possible past 4094, and the tick that raises is not counted. -/
theorem fetchPastTheEndFaults : Obligations.FetchPastTheEndFaults := by
  unfold Obligations.FetchPastTheEndFaults
  intro s now hdue hw hpc
  rw [step_of_cpuDue_of_not_waiting hdue hw, instructionStep_of_fetch_none (fetch_eq_none.mpr hpc), countIfDone_faulted]

end Sys2Proof.Machine.Proofs
end

section
/-!
PROOFS of the family 40_control_flow: the words of the jumps, the calls and the skips, and what each does to `PC`, `SP` and
`STACK`.
-/

namespace Sys2Proof.Machine.Proofs

open Sys2Proof.Machine.Laws

/-! ### The words of the family (R93, R96) -/

theorem wordOf_ret : WordOf 0x00EE .ret := wordOf_intro rfl rfl

theorem wordOf_jp (nnn : Addr12) : WordOf (0x1000 + nnn.toNat) (.jp nnn) :=
  wordOf_intro (toNat_tn 0x1#4 nnn) (by simp [encode, decode])

theorem wordOf_call (nnn : Addr12) : WordOf (0x2000 + nnn.toNat) (.call nnn) :=
  wordOf_intro (toNat_tn 0x2#4 nnn) (by simp [encode, decode])

theorem wordOf_jpV0 (nnn : Addr12) : WordOf (0xB000 + nnn.toNat) (.jpV0 nnn) :=
  wordOf_intro (toNat_tn 0xB#4 nnn) (by simp [encode, decode])

theorem wordOf_seImm (x : RegNum) (kk : Byte) : WordOf (0x3000 + x.toNat * 256 + kk.toNat) (.seImm x kk) :=
  wordOf_intro (toNat_txk 0x3#4 x kk) (by simp [encode, decode])

theorem wordOf_sneImm (x : RegNum) (kk : Byte) : WordOf (0x4000 + x.toNat * 256 + kk.toNat) (.sneImm x kk) :=
  wordOf_intro (toNat_txk 0x4#4 x kk) (by simp [encode, decode])

theorem wordOf_seReg (x y : RegNum) : WordOf (0x5000 + x.toNat * 256 + y.toNat * 16) (.seReg x y) :=
  wordOf_intro (toNat_txyn 0x5#4 x y 0x0#4) (by simp [encode, decode])

theorem wordOf_sneReg (x y : RegNum) : WordOf (0x9000 + x.toNat * 256 + y.toNat * 16) (.sneReg x y) :=
  wordOf_intro (toNat_txyn 0x9#4 x y 0x0#4) (by simp [encode, decode])

/-- R97: a low nibble other than 0 makes the word of SE on two registers unknown. -/
theorem decode_seReg_nibble (x y : RegNum) {n : BitVec 4} (hn : n ≠ 0#4) :
    decode (0x5#4 ++ x ++ y ++ n) = .error (.unknownOpcode (0x5#4 ++ x ++ y ++ n)) := by
  simp [decode, hn]

/-- R97: a low nibble other than 0 makes the word of SNE on two registers unknown. -/
theorem decode_sneReg_nibble (x y : RegNum) {n : BitVec 4} (hn : n ≠ 0#4) :
    decode (0x9#4 ++ x ++ y ++ n) = .error (.unknownOpcode (0x9#4 ++ x ++ y ++ n)) := by
  simp [decode, hn]

/-! ### Jumps -/

@[simp] theorem toNat_addrOperand (nnn : Addr12) : (addrOperand nnn).toNat = nnn.toNat :=
  BitVec.toNat_setWidth_of_le (by decide)

@[simp] theorem toNat_zextByte (b : Byte) : (zextByte b).toNat = b.toNat := BitVec.toNat_setWidth_of_le (by decide)

/-- R128: the sum of an address and a byte fits a word, so it is not reduced. -/
theorem toNat_addrOperand_add_zextByte (nnn : Addr12) (b : Byte) :
    (addrOperand nnn + zextByte b).toNat = nnn.toNat + b.toNat := by
  have hlt : (addrOperand nnn).toNat + (zextByte b).toNat < 2 ^ 16 := by
    rw [toNat_addrOperand, toNat_zextByte]
    omega
  rw [BitVec.toNat_add_of_lt hlt, toNat_addrOperand, toNat_zextByte]

theorem onlyPc_setPc (s : State) (a : Word) : OnlyPc s (s.fetched.setPc a) := ⟨rfl, fun _ => rfl⟩

theorem exec_jp (nnn : Addr12) (s : State) : exec (.jp nnn) s = .next (s.fetched.setPc (addrOperand nnn)) := rfl

theorem exec_jpV0 (nnn : Addr12) (s : State) :
    exec (.jpV0 nnn) s = .next (s.fetched.setPc (addrOperand nnn + zextByte (s.reg 0#4))) := rfl

/-! ### Skips -/

/-- R120: what a skip does, for a test `c` that is true under `P` and false under `Q`. -/
theorem skip_spec (s : State) {c : Bool} {P Q : Prop} (hP : P → c = true) (hQ : Q → c = false) :
    OnlyPc s (s.fetched.skipIf c) ∧ (P → (s.fetched.skipIf c).pc = s.pc + 4#16) ∧
      (Q → (s.fetched.skipIf c).pc = s.pc + 2#16) := by
  refine ⟨?_, fun h => ?_, fun h => ?_⟩
  · rw [skipIf_eq]
    exact ⟨rfl, fun _ => rfl⟩
  · simp [hP h, BitVec.add_assoc]
  · simp [hQ h]

theorem exec_seImm (x : RegNum) (kk : Byte) (s : State) :
    exec (.seImm x kk) s = .next (s.fetched.skipIf (s.reg x == kk)) := rfl

theorem exec_sneImm (x : RegNum) (kk : Byte) (s : State) :
    exec (.sneImm x kk) s = .next (s.fetched.skipIf (s.reg x != kk)) := rfl

theorem exec_seReg (x y : RegNum) (s : State) :
    exec (.seReg x y) s = .next (s.fetched.skipIf (s.reg x == s.reg y)) := rfl

theorem exec_sneReg (x y : RegNum) (s : State) :
    exec (.sneReg x y) s = .next (s.fetched.skipIf (s.reg x != s.reg y)) := rfl

/-! ### The stack -/

/-- R121: RET on an empty stack. -/
theorem exec_ret_of_empty {s : State} (h : s.sp.toNat = 0) :
    exec .ret s = .next (faulted s .stackUnderflow (some (encode .ret))) := by
  have hsp : s.sp = 0#8 := BitVec.eq_of_toNat_eq h
  simp only [exec, execRet, hsp, if_true, raise_eq_faulted]

theorem toNat_sub_one {b : Byte} (h : 0 < b.toNat) : (b - 1#8).toNat = b.toNat - 1 :=
  BitVec.toNat_sub_of_le (BitVec.le_def.mpr h)

/-- R121: RET with the return address `a` on top. -/
theorem exec_ret_of_top {s : State} {a : Word} (h : 0 < s.sp.toNat) (ha : s.stack[s.sp.toNat - 1]? = some a) :
    exec .ret s = .next { s with sp := s.sp - 1#8, pc := a } := by
  have hsp : s.sp ≠ 0#8 := by
    intro e
    simp [e] at h
  rw [← toNat_sub_one h] at ha
  simp only [exec, execRet, if_neg hsp, ha]

/-- R123: CALL on a full stack. -/
theorem exec_call_of_full {nnn : Addr12} {s : State} (h : s.sp.toNat = s.cfg.stackSize) :
    exec (.call nnn) s = .next (faulted s .stackOverflow (some (encode (.call nnn)))) := by
  simp only [exec, execCall, if_pos h, raise_eq_faulted]

/-- R123: CALL with room on the stack. -/
theorem exec_call_of_room {nnn : Addr12} {s : State} (hb : StackBounded s) (h : s.sp.toNat < s.cfg.stackSize) :
    exec (.call nnn) s = .next { s with stack := s.stack.set s.sp.toNat (s.pc + 2#16), sp := s.sp + 1#8,
                                        pc := addrOperand nnn } := by
  have hlen : s.sp.toNat < s.stack.length := hb.1 ▸ h
  simp only [exec, execCall, if_neg h.ne, if_pos hlen, fetched_pc]

/-- R7: `STACK_SIZE` is at most 255, so `SP` does not wrap at a push. -/
theorem toNat_sp_add_one {s : State} (hv : s.cfg.valid = true) (h : s.sp.toNat < s.cfg.stackSize) :
    (s.sp + 1#8).toNat = s.sp.toNat + 1 := by
  have hmax : s.cfg.stackSize ≤ 255 := by
    simp only [Config.valid, Bool.and_eq_true, decide_eq_true_eq] at hv
    omega
  have hlt : s.sp.toNat + 1 < 2 ^ 8 := by omega
  exact BitVec.toNat_add_of_lt hlt

/-- Settles O10: the entry below `SP` is the one popped; a fetch fails exactly past 4094. -/
theorem returnPopsTheStack : Obligations.ReturnPopsTheStack := by
  unfold Obligations.ReturnPopsTheStack
  refine fun s => ⟨wordOf_ret, exec_ret_of_empty, fun hpos hle => ?_⟩
  have htop : s.stack[s.sp.toNat - 1]? = some s.stack[s.sp.toNat - 1] := List.getElem?_eq_getElem (by omega)
  have hsp := toNat_sub_one hpos
  exact ⟨_, exec_ret_of_top hpos htop, hsp, by rw [hsp]; exact htop, rfl, fun _ => rfl, fetch_eq_none.mpr⟩

/-- Settles O11: the push writes the one entry at `SP`, which is inside the bounded stack and does not wrap. -/
theorem callPushesTheReturnAddress : Obligations.CallPushesTheReturnAddress := by
  unfold Obligations.CallPushesTheReturnAddress
  refine fun nnn s => ⟨wordOf_call nnn, fun hfull => ?_, fun hv hb hroom => ?_⟩
  · rw [exec_call_of_full hfull, (wordOf_call nnn).1]
  · have hlen : s.sp.toNat < s.stack.length := hb.1 ▸ hroom
    exact ⟨_, exec_call_of_room hb hroom, List.getElem?_set_self hlen, fun k hk => List.getElem?_set_ne hk.symm,
      toNat_sp_add_one hv hroom, toNat_addrOperand nnn, rfl, fun _ => rfl⟩

/-- Settles O9: both jumps set `PC` alone, to a sum that fits a word. -/
theorem jumpsSetPc : Obligations.JumpsSetPc := by
  unfold Obligations.JumpsSetPc
  intro nnn s
  have hsum := toNat_addrOperand_add_zextByte nnn (s.reg 0#4)
  refine ⟨⟨wordOf_jp nnn, _, exec_jp nnn s, toNat_addrOperand nnn, onlyPc_setPc s _, ?_⟩,
    wordOf_jpV0 nnn, _, exec_jpV0 nnn s, hsum, onlyPc_setPc s _, ?_⟩
  · rintro rfl
    exact fetch_eq_none.mpr (by rw [setPc_pc, toNat_addrOperand]; decide)
  · exact fun h => fetch_eq_none.mpr (hsum.symm ▸ h)

/-- Settles O13: each skip is `skip_spec` at its own test. -/
theorem skipsTestTheirCondition : Obligations.SkipsTestTheirCondition := by
  unfold Obligations.SkipsTestTheirCondition
  intro x y kk s
  refine ⟨⟨wordOf_seImm x kk, _, exec_seImm x kk s, ?_⟩, ⟨wordOf_sneImm x kk, _, exec_sneImm x kk s, ?_⟩,
    ⟨wordOf_seReg x y, _, exec_seReg x y s, ?_⟩, ⟨wordOf_sneReg x y, _, exec_sneReg x y s, ?_⟩,
    fun n hn => ⟨decode_seReg_nibble x y hn, decode_sneReg_nibble x y hn⟩⟩
  · exact skip_spec s beq_iff_eq.mpr beq_eq_false_iff_ne.mpr
  · exact skip_spec s bne_iff_ne.mpr bne_eq_false_iff_eq.mpr
  · exact skip_spec s beq_iff_eq.mpr beq_eq_false_iff_ne.mpr
  · exact skip_spec s bne_iff_ne.mpr bne_eq_false_iff_eq.mpr

end Sys2Proof.Machine.Proofs
end

section
/-!
PROOFS of the family 41_alu: the words of the loads and of the arithmetic, what a write of one register and a flagged write
change, and the flag of each subtraction rule.
-/

namespace Sys2Proof.Machine.Proofs

open Sys2Proof.Machine.Laws

/-! ### The words of the family (R93, R96) -/

theorem wordOf_ldImm (x : RegNum) (kk : Byte) : WordOf (0x6000 + x.toNat * 256 + kk.toNat) (.ldImm x kk) :=
  wordOf_intro (toNat_txk 0x6#4 x kk) (by simp [encode, decode])

theorem wordOf_addImm (x : RegNum) (kk : Byte) : WordOf (0x7000 + x.toNat * 256 + kk.toNat) (.addImm x kk) :=
  wordOf_intro (toNat_txk 0x7#4 x kk) (by simp [encode, decode])

/-- The layout of the words with major opcode F, with the low byte beside the opcode. -/
theorem toNat_miscWord (x : RegNum) (kk : Byte) :
    BitVec.toNat (w := 16) (0xF#4 ++ x ++ kk) = 0xF000 + kk.toNat + x.toNat * 256 :=
  (toNat_txk 0xF#4 x kk).trans (Nat.add_right_comm _ _ _)

theorem wordOf_ldVxDt (x : RegNum) : WordOf (0xF007 + x.toNat * 256) (.ldVxDt x) :=
  wordOf_intro (toNat_miscWord x 0x07#8) (by simp [encode, decode, decodeMisc])

/-- The layout of the words with major opcode 8, with the low nibble beside the opcode. -/
theorem toNat_aluWord (x y : RegNum) (n : BitVec 4) :
    BitVec.toNat (w := 16) (0x8#4 ++ x ++ y ++ n) = 0x8000 + n.toNat + x.toNat * 256 + y.toNat * 16 := by
  rw [toNat_txyn, BitVec.toNat_ofNat]
  omega

theorem wordOf_ldReg (x y : RegNum) : WordOf (0x8000 + x.toNat * 256 + y.toNat * 16) (.ldReg x y) :=
  wordOf_intro (toNat_aluWord x y 0x0#4) (by simp [encode, decode, decodeAlu])

theorem wordOf_addReg (x y : RegNum) : WordOf (0x8004 + x.toNat * 256 + y.toNat * 16) (.addReg x y) :=
  wordOf_intro (toNat_aluWord x y 0x4#4) (by simp [encode, decode, decodeAlu])

theorem wordOf_subReg (x y : RegNum) : WordOf (0x8005 + x.toNat * 256 + y.toNat * 16) (.subReg x y) :=
  wordOf_intro (toNat_aluWord x y 0x5#4) (by simp [encode, decode, decodeAlu])

theorem wordOf_subn (x y : RegNum) : WordOf (0x8007 + x.toNat * 256 + y.toNat * 16) (.subn x y) :=
  wordOf_intro (toNat_aluWord x y 0x7#4) (by simp [encode, decode, decodeAlu])

/-! ### The state each instruction answers -/

theorem exec_ldImm (x : RegNum) (kk : Byte) (s : State) : exec (.ldImm x kk) s = .next (s.fetched.setReg x kk) := rfl

theorem exec_addImm (x : RegNum) (kk : Byte) (s : State) :
    exec (.addImm x kk) s = .next (s.fetched.setReg x (u8 ((s.reg x).toNat + kk.toNat))) := rfl

theorem exec_ldReg (x y : RegNum) (s : State) : exec (.ldReg x y) s = .next (s.fetched.setReg x (s.reg y)) := rfl

theorem exec_ldVxDt (x : RegNum) (s : State) : exec (.ldVxDt x) s = .next (s.fetched.setReg x s.dt) := rfl

theorem exec_addReg (x y : RegNum) (s : State) :
    exec (.addReg x y) s = .next (s.fetched.writeFlagged x (addFlagged (s.reg x) (s.reg y))) := rfl

theorem exec_subReg (x y : RegNum) (s : State) :
    exec (.subReg x y) s = .next (s.fetched.writeFlagged x (subFlagged s.cfg.subFlagRule (s.reg x) (s.reg y))) := rfl

theorem exec_subn (x y : RegNum) (s : State) :
    exec (.subn x y) s = .next (s.fetched.writeFlagged x (subnFlagged s.cfg.subFlagRule (s.reg x) (s.reg y))) := rfl

/-! ### What the two kinds of write change -/

/-- An instruction that writes one register changes that register and `PC`. -/
theorem writesReg_setReg (s : State) (x : RegNum) (b : Byte) : WritesReg s (s.fetched.setReg x b) x b.toNat :=
  ⟨congrArg BitVec.toNat (reg_setReg_same s.fetched x b), fun _ hk => reg_setReg_other s.fetched b hk, rfl, rfl,
    fun _ => rfl⟩

/-- R157: a flagged write to a register other than `VF` writes both, in either order. -/
theorem reg_writeFlagged_of_ne (s : State) {x : RegNum} (hx : x ≠ 15#4) (rf : Byte × Bool) :
    (s.writeFlagged x rf).reg x = rf.1 ∧ (s.writeFlagged x rf).reg 15#4 = flagByte rf.2 := by
  cases h : s.cfg.vfOrder <;> simp [reg_writeFlagged, h, hx, hx.symm]

theorem reg_writeFlagged_vf_of_resultLast {s : State} (h : s.cfg.vfOrder = .resultLast) (rf : Byte × Bool) :
    (s.writeFlagged 15#4 rf).reg 15#4 = rf.1 := by
  simp [reg_writeFlagged, h]

theorem reg_writeFlagged_vf_of_flagLast {s : State} (h : s.cfg.vfOrder = .flagLast) (rf : Byte × Bool) :
    (s.writeFlagged 15#4 rf).reg 15#4 = flagByte rf.2 := by
  simp [reg_writeFlagged, h]

theorem reg_writeFlagged_other (s : State) {x k : RegNum} (hk : ¬ (k = x ∨ k = 15#4)) (rf : Byte × Bool) :
    (s.writeFlagged x rf).reg k = s.reg k := by
  obtain ⟨hx, hf⟩ := not_or.mp hk
  cases h : s.cfg.vfOrder <;> simp [reg_writeFlagged, h, hx, hf]

/-- R157: an instruction that writes a result and a flag changes the result's register, `VF` and `PC`. -/
theorem writesFlagged_writeFlagged (s : State) (x : RegNum) (rf : Byte × Bool) :
    WritesFlagged s (s.fetched.writeFlagged x rf) x rf.1.toNat (flagByte rf.2).toNat := by
  refine ⟨fun hx => ?_, ?_, ?_, fun _ hk => reg_writeFlagged_other s.fetched hk rf, writeFlagged_pc .., ?_, fun _ => ?_⟩
  · obtain ⟨hr, hf⟩ := reg_writeFlagged_of_ne s.fetched hx rf
    exact ⟨congrArg _ hr, congrArg _ hf⟩
  · rintro rfl h
    exact congrArg _ (reg_writeFlagged_vf_of_resultLast (s := s.fetched) h rf)
  · rintro rfl h
    exact congrArg _ (reg_writeFlagged_vf_of_flagLast (s := s.fetched) h rf)
  · rw [writeFlagged_eq]
    rfl
  · rw [writeFlagged_mem, fetched_mem]

/-! ### The flags of the subtractions (R159, R161, R165) -/

/-- R165, `DOCUMENT`: both subtractions test `V[x] > V[y]`. -/
theorem toNat_subtractionFlags_document (a b : Byte) :
    (flagByte (subFlag .document a b)).toNat = (if a.toNat > b.toNat then 1 else 0) ∧
      (flagByte (subnFlag .document a b)).toNat = (if a.toNat > b.toNat then 1 else 0) := by
  simp [subFlag, subnFlag]

/-- R165, `CANONICAL`: each subtraction tests that it needs no borrow. -/
theorem toNat_subtractionFlags_canonical (a b : Byte) :
    (flagByte (subFlag .canonical a b)).toNat = (if a.toNat ≥ b.toNat then 1 else 0) ∧
      (flagByte (subnFlag .canonical a b)).toNat = (if b.toNat ≥ a.toNat then 1 else 0) := by
  simp [subFlag, subnFlag]

/-- R165: numbers `f` and `g` that are as each rule says are the flags of SUB and SUBN under the rule in force. -/
theorem toNat_subtractionFlags {r : SubFlagRule} {a b : Byte} {f g : Nat}
    (hdoc : r = .document → f = (if a.toNat > b.toNat then 1 else 0) ∧ g = f)
    (hcan : r = .canonical → f = (if a.toNat ≥ b.toNat then 1 else 0) ∧ g = (if b.toNat ≥ a.toNat then 1 else 0)) :
    (flagByte (subFlag r a b)).toNat = f ∧ (flagByte (subnFlag r a b)).toNat = g := by
  cases r with
  | document =>
    obtain ⟨hf, hg⟩ := hdoc rfl
    rw [hg, hf]
    exact toNat_subtractionFlags_document a b
  | canonical =>
    obtain ⟨hf, hg⟩ := hcan rfl
    rw [hf, hg]
    exact toNat_subtractionFlags_canonical a b

/-- Settles O18: both are flagged writes; the rule in force fixes the two flags. -/
theorem subtractionsSetTheFlag : Obligations.SubtractionsSetTheFlag := by
  unfold Obligations.SubtractionsSetTheFlag
  intro x y s f g hdoc hcan
  obtain ⟨hf, hg⟩ := toNat_subtractionFlags hdoc hcan
  refine ⟨⟨wordOf_subReg x y, _, exec_subReg x y s, ?_⟩, wordOf_subn x y, _, exec_subn x y s, ?_⟩
  · rw [← hf, ← toNat_u8]
    exact writesFlagged_writeFlagged s x (subFlagged _ _ _)
  · rw [← hg, ← toNat_u8]
    exact writesFlagged_writeFlagged s x (subnFlagged _ _ _)

/-- Settles O14: each load is a write of one register. -/
theorem loadsWriteOneRegister : Obligations.LoadsWriteOneRegister := by
  unfold Obligations.LoadsWriteOneRegister
  exact fun x y kk s => ⟨⟨wordOf_ldImm x kk, _, exec_ldImm x kk s, writesReg_setReg s x kk⟩,
    ⟨wordOf_ldReg x y, _, exec_ldReg x y s, writesReg_setReg s x (s.reg y)⟩,
    wordOf_ldVxDt x, _, exec_ldVxDt x s, writesReg_setReg s x s.dt⟩

/-- Settles O15: the sum modulo 256 is written to one register. -/
theorem addImmediateWrapsWithoutFlag : Obligations.AddImmediateWrapsWithoutFlag := by
  unfold Obligations.AddImmediateWrapsWithoutFlag
  refine fun x kk s => ⟨wordOf_addImm x kk, _, exec_addImm x kk s, ?_⟩
  rw [← toNat_u8]
  exact writesReg_setReg s x _

/-- Settles O17: a flagged write of the sum modulo 256 and the carry. -/
theorem addSetsTheCarry : Obligations.AddSetsTheCarry := by
  unfold Obligations.AddSetsTheCarry
  refine fun x y s => ⟨wordOf_addReg x y, _, exec_addReg x y s, ?_⟩
  have hflag : (flagByte (addFlagged (s.reg x) (s.reg y)).2).toNat =
      if (s.reg x).toNat + (s.reg y).toNat > 255 then 1 else 0 := by
    simp [addFlagged]
  rw [← hflag, ← toNat_u8]
  exact writesFlagged_writeFlagged s x (addFlagged _ _)

end Sys2Proof.Machine.Proofs
end

section
/-!
PROOFS of the family 42_index_memory: the words of the instructions that use `I`, what a store at the data addresses leaves in
memory, and the three writers of `I`.
-/

namespace Sys2Proof.Machine.Proofs

open Sys2Proof.Machine.Laws

/-! ### The words of the family (R93, R96) -/

theorem wordOf_ldI (nnn : Addr12) : WordOf (0xA000 + nnn.toNat) (.ldI nnn) :=
  wordOf_intro (toNat_tn 0xA#4 nnn) (by simp [encode, decode])

theorem wordOf_addI (x : RegNum) : WordOf (0xF01E + x.toNat * 256) (.addI x) :=
  wordOf_intro (toNat_miscWord x 0x1E#8) (by simp [encode, decode, decodeMisc])

theorem wordOf_ldF (x : RegNum) : WordOf (0xF029 + x.toNat * 256) (.ldF x) :=
  wordOf_intro (toNat_miscWord x 0x29#8) (by simp [encode, decode, decodeMisc])

theorem wordOf_ldB (x : RegNum) : WordOf (0xF033 + x.toNat * 256) (.ldB x) :=
  wordOf_intro (toNat_miscWord x 0x33#8) (by simp [encode, decode, decodeMisc])

theorem wordOf_ldMemVx (x : RegNum) : WordOf (0xF055 + x.toNat * 256) (.ldMemVx x) :=
  wordOf_intro (toNat_miscWord x 0x55#8) (by simp [encode, decode, decodeMisc])

theorem wordOf_ldVxMem (x : RegNum) : WordOf (0xF065 + x.toNat * 256) (.ldVxMem x) :=
  wordOf_intro (toNat_miscWord x 0x65#8) (by simp [encode, decode, decodeMisc])

/-! ### What each instruction answers -/

theorem exec_ldI (nnn : Addr12) (s : State) : exec (.ldI nnn) s = .next { s.fetched with i := addrOperand nnn } := rfl

theorem exec_addI (x : RegNum) (s : State) :
    exec (.addI x) s = .next { s.fetched with i := s.i + zextByte (s.reg x) } := rfl

theorem exec_ldF (x : RegNum) (s : State) : exec (.ldF x) s = .next { s.fetched with i := glyphAddress (s.reg x) } := rfl

theorem exec_ldB (x : RegNum) (s : State) :
    exec (.ldB x) s =
      s.guarded 2 (encode (.ldB x)) (s.fetched.store (s.cellsFrom 0 (bcdDigits (s.reg x)))) := rfl

theorem exec_ldMemVx (x : RegNum) (s : State) :
    exec (.ldMemVx x) s =
      s.guarded x.toNat (encode (.ldMemVx x)) (s.fetched.store (s.cellsFrom 0 (s.regsUpTo x))) := rfl

theorem exec_ldVxMem (x : RegNum) (s : State) :
    exec (.ldVxMem x) s = s.guarded x.toNat (encode (.ldVxMem x)) (s.fetched.loadRegs x) := rfl

/-! ### A store at the data addresses -/

section Store

variable {s : State} {kmax : Nat} {bs : List Byte}

/-- R194: a byte stored at each of the checked addresses `Access(0)..Access(kmax)` stands there afterwards. -/
theorem read_dataStore_at (hw : MemCanonical s) (hr : DataInRange s kmax) (hlen : bs.length = kmax + 1)
    (hmax : kmax < 4096) {j : Nat} (hj : j < bs.length) :
    Memory.read (s.fetched.store (s.cellsFrom 0 bs)).mem (s.access j) = bs[j] := by
  have h := read_store_at (k := 0) hw (fun i hi => access_lt hr (by omega)) (by omega) hj
  rwa [Nat.zero_add] at h

/-- R194: a store at `Access(0)..Access(kmax)` leaves every other byte. -/
theorem read_dataStore_other (hw : MemCanonical s) (hr : DataInRange s kmax) (hlen : bs.length = kmax + 1) {a : Nat}
    (ha : ∀ k, k ≤ kmax → a ≠ s.access k) :
    Memory.read (s.fetched.store (s.cellsFrom 0 bs)).mem a = Memory.read s.mem a :=
  read_store_other hw (fun _ hj => access_lt hr (by omega)) (fun _ hj => (ha _ (by omega)).symm)

end Store

/-- R193: a byte's decimal digits fit a byte each. -/
theorem toNat_bcdDigits (b : Byte) :
    (bcdDigits b)[0].toNat = b.toNat / 100 ∧ (bcdDigits b)[1].toNat = b.toNat / 10 % 10 ∧
      (bcdDigits b)[2].toNat = b.toNat % 10 := by
  simp only [bcdDigits, List.getElem_cons_zero, List.getElem_cons_succ, toNat_u8]
  omega

/-- Settles O23: the digits are stored at the three checked addresses, and no other byte is written. -/
theorem bcdIsStored : Obligations.BcdIsStored := by
  unfold Obligations.BcdIsStored
  refine fun x s hw => ⟨wordOf_ldB x, fun hr => ?_, fun hr => ?_⟩
  · have hlen : (bcdDigits (s.reg x)).length = 2 + 1 := length_bcdDigits _
    obtain ⟨h100, h10, h1⟩ := toNat_bcdDigits (s.reg x)
    refine ⟨_, (exec_ldB x s).trans (guarded_pass hr), ?_, ?_, ?_, fun a h0 h1 h2 => ?_, rfl, rfl⟩
    · exact (congrArg _ (read_dataStore_at hw hr hlen (by decide) _)).trans h100
    · exact (congrArg _ (read_dataStore_at hw hr hlen (by decide) _)).trans h10
    · exact (congrArg _ (read_dataStore_at hw hr hlen (by decide) _)).trans h1
    · refine read_dataStore_other hw hr hlen fun k hk => ?_
      obtain rfl | rfl | rfl : k = 0 ∨ k = 1 ∨ k = 2 := by omega
      · exact h0
      · exact h1
      · exact h2
  · rw [exec_ldB, guarded_fault hr, (wordOf_ldB x).1]

/-- Settles O24: `V[k]` is the byte stored at the checked address of offset k, and no other byte is written. -/
theorem registersAreStored : Obligations.RegistersAreStored := by
  unfold Obligations.RegistersAreStored
  refine fun x s hw => ⟨wordOf_ldMemVx x, fun hr => ?_, fun hr => ?_⟩
  · have hlen : (s.regsUpTo x).length = x.toNat + 1 := length_regsUpTo s x
    refine ⟨_, (exec_ldMemVx x s).trans (guarded_pass hr), fun k hk => ?_,
      fun a ha => read_dataStore_other hw hr hlen ha, rfl, rfl⟩
    have hk' : k.toNat < (s.regsUpTo x).length := by omega
    rw [read_dataStore_at hw hr hlen (by omega) hk', getElem_regsUpTo]
  · rw [exec_ldMemVx, guarded_fault hr, (wordOf_ldMemVx x).1]

/-- Settles O25: each register up to Vx is the data byte at its offset, read from the memory before, which stays. -/
theorem registersAreLoaded : Obligations.RegistersAreLoaded := by
  unfold Obligations.RegistersAreLoaded
  refine fun x s => ⟨wordOf_ldVxMem x, fun hr => ?_, fun hr => ?_⟩
  · refine ⟨_, (exec_ldVxMem x s).trans (guarded_pass hr), fun k hk => ?_, fun k hk => ?_, rfl, rfl, fun _ => rfl⟩
    · rw [reg_loadRegs, if_pos hk]
      rfl
    · rw [reg_loadRegs, if_neg hk, fetched_reg]
  · rw [exec_ldVxMem, guarded_fault hr, (wordOf_ldVxMem x).1]

/-! ### The writers of `I` -/

/-- R191: the sum of `I` and a register wraps at 16 bits. -/
theorem toNat_add_zextByte (i : Word) (b : Byte) : (i + zextByte b).toNat = (i.toNat + b.toNat) % 65536 := by
  rw [BitVec.toNat_add, toNat_zextByte]

/-- R192: five times a byte fits a word, so the glyph address is not reduced. -/
theorem toNat_glyphAddress (b : Byte) : (glyphAddress b).toNat = 5 * b.toNat := by
  rw [glyphAddress, BitVec.toNat_ofNat, Nat.mod_eq_of_lt (by omega)]

/-- An instruction that sets `I` changes `I` and `PC`. -/
theorem frame_of_setIndex (s : State) (w : Word) {t : State} (ht : t = { s.fetched with i := w }) :
    t.pc = s.pc + 2#16 ∧ t = { s with i := t.i, pc := t.pc } ∧ SameBytes s t := by
  subst ht
  exact ⟨rfl, rfl, fun _ => rfl⟩

/-- Settles O22: each writer sets `I` and `PC` alone; only the sum of ADD I can wrap. -/
theorem indexRegisterWrites : Obligations.IndexRegisterWrites := by
  unfold Obligations.IndexRegisterWrites
  exact fun nnn x s =>
    ⟨⟨wordOf_ldI nnn, _, exec_ldI nnn s, toNat_addrOperand nnn, frame_of_setIndex s _ rfl⟩,
      ⟨wordOf_addI x, _, exec_addI x s, toNat_add_zextByte s.i (s.reg x), frame_of_setIndex s _ rfl⟩,
      wordOf_ldF x, _, exec_ldF x s, toNat_glyphAddress (s.reg x), frame_of_setIndex s _ rfl⟩

end Sys2Proof.Machine.Proofs
end

section
/-!
PROOFS of the family 43_display: the word of CLS, and what it does to the screen's storage.
-/

namespace Sys2Proof.Machine.Proofs

open Sys2Proof.Machine.Laws

theorem wordOf_cls : WordOf 0x00E0 .cls := wordOf_intro rfl rfl

theorem exec_cls (s : State) : exec .cls s = .next { s.fetched with screen := Screen.blank } := rfl

/-- An instruction that replaces the screen changes the screen and `PC`. -/
theorem frame_of_setScreen (s : State) (scr : Screen) {t : State} (ht : t = { s.fetched with screen := scr }) :
    t.pc = s.pc + 2#16 ∧ t = { s with screen := t.screen, pc := t.pc } ∧ SameBytes s t := by
  subst ht
  exact ⟨rfl, rfl, fun _ => rfl⟩

/-- Settles O26: the screen becomes the blank one, whose pixels are all 0, and `PC` moves on. -/
theorem clearScreenClearsEveryPixel : Obligations.ClearScreenClearsEveryPixel := by
  unfold Obligations.ClearScreenClearsEveryPixel
  exact fun s => ⟨wordOf_cls, _, exec_cls s, pixel_blank, frame_of_setScreen s Screen.blank rfl⟩

end Sys2Proof.Machine.Proofs
end

section
/-!
PROOFS of the family 44_timers_keys: the words of the key skips, of the key wait and of the two writes of a timer, and the
state each instruction answers.
-/

namespace Sys2Proof.Machine.Proofs

open Sys2Proof.Machine.Laws

/-! ### The words of the family (R93, R96) -/

/-- The layout of the words with major opcode E, with the low byte beside the opcode. -/
theorem toNat_keySkipWord (x : RegNum) (kk : Byte) :
    BitVec.toNat (w := 16) (0xE#4 ++ x ++ kk) = 0xE000 + kk.toNat + x.toNat * 256 :=
  (toNat_txk 0xE#4 x kk).trans (Nat.add_right_comm _ _ _)

theorem wordOf_skp (x : RegNum) : WordOf (0xE09E + x.toNat * 256) (.skp x) :=
  wordOf_intro (toNat_keySkipWord x 0x9E#8) (by simp [encode, decode])

theorem wordOf_sknp (x : RegNum) : WordOf (0xE0A1 + x.toNat * 256) (.sknp x) :=
  wordOf_intro (toNat_keySkipWord x 0xA1#8) (by simp [encode, decode])

theorem wordOf_ldVxK (x : RegNum) : WordOf (0xF00A + x.toNat * 256) (.ldVxK x) :=
  wordOf_intro (toNat_miscWord x 0x0A#8) (by simp [encode, decode, decodeMisc])

theorem wordOf_ldDtVx (x : RegNum) : WordOf (0xF015 + x.toNat * 256) (.ldDtVx x) :=
  wordOf_intro (toNat_miscWord x 0x15#8) (by simp [encode, decode, decodeMisc])

theorem wordOf_ldStVx (x : RegNum) : WordOf (0xF018 + x.toNat * 256) (.ldStVx x) :=
  wordOf_intro (toNat_miscWord x 0x18#8) (by simp [encode, decode, decodeMisc])

/-! ### The key skips -/

section KeySkips

variable {x : RegNum} {s : State}

/-- R230, R231: SKP on a number that names no key. -/
theorem exec_skp_of_outOfRange (h : 15 < (s.reg x).toNat) :
    exec (.skp x) s = .next (faulted s .keyOutOfRange (some (encode (.skp x)))) := by
  simp only [exec, execSkp, if_pos h, raise_eq_faulted]

/-- R230, R232: SKNP on a number that names no key. -/
theorem exec_sknp_of_outOfRange (h : 15 < (s.reg x).toNat) :
    exec (.sknp x) s = .next (faulted s .keyOutOfRange (some (encode (.sknp x)))) := by
  simp only [exec, execSknp, if_pos h, raise_eq_faulted]

/-- R231: SKP skips when the key is pressed. -/
theorem exec_skp_of_key (h : (s.reg x).toNat ≤ 15) :
    exec (.skp x) s = .next (s.fetched.skipIf (s.keys.getLsbD (s.reg x).toNat)) := by
  simp only [exec, execSkp, if_neg (Nat.not_lt.mpr h), State.keyPressed]

/-- R232: SKNP skips when the key is not pressed. -/
theorem exec_sknp_of_key (h : (s.reg x).toNat ≤ 15) :
    exec (.sknp x) s = .next (s.fetched.skipIf (!s.keys.getLsbD (s.reg x).toNat)) := by
  simp only [exec, execSknp, if_neg (Nat.not_lt.mpr h), State.keyPressed]

end KeySkips

/-- Settles O30: a number above 15 faults; at a key's number each skip is `skip_spec`, the two at opposite tests. -/
theorem keySkipsReadTheKeys : Obligations.KeySkipsReadTheKeys := by
  unfold Obligations.KeySkipsReadTheKeys
  refine fun x s => ⟨wordOf_skp x, wordOf_sknp x, fun h => ⟨?_, ?_⟩, fun h => ?_⟩
  · rw [exec_skp_of_outOfRange h, (wordOf_skp x).1]
  · rw [exec_sknp_of_outOfRange h, (wordOf_sknp x).1]
  · obtain ⟨hskp, hskpDown, hskpUp⟩ := skip_spec s (c := s.keys.getLsbD (s.reg x).toNat) id id
    obtain ⟨hsknp, hsknpUp, hsknpDown⟩ :=
      skip_spec s (c := !s.keys.getLsbD (s.reg x).toNat) (Bool.not_eq_true' _).mpr (Bool.not_eq_false' _).mpr
    exact ⟨_, _, exec_skp_of_key h, exec_sknp_of_key h, hskp, hsknp,
      fun hdown => ⟨hskpDown hdown, hsknpDown hdown⟩, fun hup => ⟨hskpUp hup, hsknpUp hup⟩⟩

/-! ### The key wait and the timers -/

theorem exec_ldVxK (x : RegNum) (s : State) : exec (.ldVxK x) s = .next { s.fetched with wait := some x } := rfl

theorem exec_ldDtVx (x : RegNum) (s : State) : exec (.ldDtVx x) s = .next { s.fetched with dt := s.reg x } := rfl

theorem exec_ldStVx (x : RegNum) (s : State) : exec (.ldStVx x) s = .next { s.fetched with st := s.reg x } := rfl

/-- Settles O31: each replaces its own field of the fetched state, which differs from the state before in `PC` alone. -/
theorem waitAndTimersAreSet : Obligations.WaitAndTimersAreSet := by
  unfold Obligations.WaitAndTimersAreSet
  exact fun x s => ⟨⟨wordOf_ldVxK x, _, exec_ldVxK x s, rfl, rfl, rfl, fun _ => rfl⟩,
    ⟨wordOf_ldDtVx x, _, exec_ldDtVx x s, rfl, rfl, rfl, fun _ => rfl⟩,
    wordOf_ldStVx x, _, exec_ldStVx x s, rfl, rfl, rfl, fun _ => rfl⟩

end Sys2Proof.Machine.Proofs
end

section
/-!
PROOFS of the family 45_scheduler: the guards of `advance`, the ticks that run no instruction, and the host's queries.
-/

namespace Sys2Proof.Machine.Proofs

open Sys2Proof.Machine.Laws

/-! ### The counters and the ticks that run no instruction -/

/-- R261: away from its last value a counter does not wrap. -/
theorem toNat_add_one_of_ne_lastTick {c : TickCount} (h : c ≠ lastTick) : (c + 1#64).toNat = c.toNat + 1 := by
  have hne : c.toNat ≠ 2 ^ 64 - 1 := fun e => h (BitVec.eq_of_toNat_eq (e.trans lastTick_toNat.symm))
  have hlt := c.isLt
  exact BitVec.toNat_add_of_lt (by simp only [BitVec.toNat_ofNat]; omega)

/-- R265: the counter of a due timer is not at its last value. -/
theorem timerTicks_ne_lastTick_of_timerDue {s : State} {now : Millis} (h : TimerDue s now) : s.timerTicks ≠ lastTick := by
  obtain ⟨-, -, hdue⟩ := h
  exact due_ne_lastTick (hz := timerHz) (by decide) (by decide) hdue

/-- R260: a CPU tick while a key is awaited is only counted. -/
theorem cpuTick_of_waiting {s : State} {r : RegNum} (hw : s.wait = some r) : cpuTick s = .next s.countCpu := by
  rw [cpuTick, hw]

/-- Settles O41: the due tick is the counted no-op. -/
theorem waitingTickOnlyCounts : Obligations.WaitingTickOnlyCounts := by
  unfold Obligations.WaitingTickOnlyCounts
  intro s now r hdue hw
  rw [step_cpuDue hdue, cpuTick_of_waiting hw, State.countCpu]

/-- Settles O42: both timers count down, and the due timer's counter does not wrap. -/
theorem timerTickCountsDown : Obligations.TimerTickCountsDown := by
  unfold Obligations.TimerTickCountsDown
  exact fun s now hdue => ⟨_, step_timerDue hdue, countDown_toNat s.dt, countDown_toNat s.st,
    toNat_add_one_of_ne_lastTick (timerTicks_ne_lastTick_of_timerDue hdue), rfl⟩

/-! ### Commands that only answer -/

/-- A command whose performance is its answer leaves the queue, keeps its result and changes nothing else. -/
theorem step_of_answer {s : State} {c : Command} {rest : List Command} {r : Reply} (h : Commanded s c rest)
    (hr : State.perform { s with pending := rest } c = State.finish { s with pending := rest } r) :
    step s = .next { s with pending := rest, reply := some r } := by
  rw [step_command h, hr, State.finish]
  obtain ⟨-, hidle, -⟩ := h
  rw [hidle]

/-- R250: the first guard of `advance`. -/
theorem beginAdvance_of_not_started {s : State} (now : Millis) (hs : s.started = false) :
    s.beginAdvance now = s.finish (.err .notStarted) := by
  simp only [State.beginAdvance, hs, Bool.false_eq_true, if_false]

/-- R250: the second guard of `advance`. -/
theorem beginAdvance_of_fault {s : State} {f : FaultRecord} (now : Millis) (hs : s.started = true) (hf : s.fault = some f) :
    s.beginAdvance now = s.finish (.err (.executor f)) := by
  rw [State.beginAdvance, if_pos hs, hf]

/-- Settles O36: each guard makes the command an answer. -/
theorem advanceIsRefusedByTheGuards : Obligations.AdvanceIsRefusedByTheGuards := by
  unfold Obligations.AdvanceIsRefusedByTheGuards
  exact fun s now rest h => ⟨fun hs => step_of_answer h (beginAdvance_of_not_started now hs),
    fun f hs hf => step_of_answer h (beginAdvance_of_fault now hs hf)⟩

/-! ### The host's queries -/

/-- R295: `pixel` answers for the active area only. -/
theorem pixelQuery_iff (s : State) (X Y : Nat) :
    s.pixelQuery X Y = true ↔ X < resWidth s.res ∧ Y < resHeight s.res ∧ Screen.pixel s.screen X Y = true := by
  simp only [State.pixelQuery, Bool.and_eq_true, decide_eq_true_eq, and_assoc]

/-- R268: no whole second has passed, or `now_ms` lies before `EPOCH`. -/
theorem elapsedSeconds_of_lt {s : State} {now : Millis} (h : now.toNat < s.epoch.toNat + 1000) : s.elapsedSeconds now = 0 := by
  unfold State.elapsedSeconds
  split
  case isTrue => exact Nat.div_eq_of_lt (by omega)
  case isFalse => rfl

/-- R268: whole seconds from `EPOCH` on. -/
theorem elapsedSeconds_of_le {s : State} {now : Millis} (h : s.epoch.toNat ≤ now.toNat) :
    s.elapsedSeconds now = (now.toNat - s.epoch.toNat) / 1000 := if_pos h

/-- R268: a rate is 0 before a whole second has passed, then the ticks divided by the whole seconds. -/
theorem rateHz_spec (s : State) (ticks : TickCount) (now : Millis) :
    (now.toNat < s.epoch.toNat + 1000 → s.rateHz ticks now = 0) ∧
    (s.epoch.toNat + 1000 ≤ now.toNat → s.rateHz ticks now = ticks.toNat / ((now.toNat - s.epoch.toNat) / 1000)) := by
  refine ⟨fun h => if_pos (elapsedSeconds_of_lt h), fun h => ?_⟩
  have hsecs := elapsedSeconds_of_le (s := s) (now := now) (by omega)
  have hpos : (now.toNat - s.epoch.toNat) / 1000 ≠ 0 := by omega
  rw [State.rateHz, hsecs, if_neg hpos]

/-- Settles O52: each query only answers, with the value its own lemma gives. -/
theorem queriesChangeNothing : Obligations.QueriesChangeNothing := by
  unfold Obligations.QueriesChangeNothing
  intro s c rest h
  refine ⟨?pixel, ?tone, ?cpuRate, ?timerRate⟩
  case pixel =>
    rintro X Y rfl - -
    exact ⟨_, step_of_answer h rfl, pixelQuery_iff s X Y⟩
  case tone =>
    rintro rfl
    exact ⟨_, step_of_answer h rfl, decide_eq_true_iff⟩
  case cpuRate =>
    rintro now rfl
    exact ⟨_, step_of_answer h rfl, rateHz_spec s s.cpuTicks now⟩
  case timerRate =>
    rintro now rfl
    exact ⟨_, step_of_answer h rfl, rateHz_spec s s.timerTicks now⟩

end Sys2Proof.Machine.Proofs
end

section
/-!
PROOFS of the family 46_host_interface: the host commands that write a program byte and the key state.
-/

namespace Sys2Proof.Machine.Proofs

open Sys2Proof.Machine.Laws

/-! ### Commands that end at once -/

/-- A command performed by a change that starts no `advance` takes that change as its whole effect, beside the queue and the
result. -/
theorem step_of_finish {s u : State} {c : Command} {rest : List Command} {r : Reply} (h : Commanded s c rest)
    (hp : State.perform { s with pending := rest } c = u.finish r) (hu : u.advancing = s.advancing) :
    step s = .next { u with reply := some r } := by
  rw [step_command h, hp, State.finish]
  obtain ⟨-, hidle, -⟩ := h
  rw [← hidle, ← hu]

/-! ### `write_program_byte` -/

section ProgramByte

variable {s : State} {offset : Nat} {value : Byte}

/-- R292: an offset past the end of the memory is refused. -/
theorem writeProgramByte_of_ge (h : memSize ≤ progStart + offset) :
    s.writeProgramByte offset value = s.finish (.err .outOfBoundsWrite) := if_pos h

/-- R292: an offset inside the memory is one cell's store. -/
theorem writeProgramByte_of_lt (h : progStart + offset < memSize) :
    s.writeProgramByte offset value = (s.store [(progStart + offset, value)]).finish .ok := if_neg (Nat.not_le.mpr h)

end ProgramByte

/-- A read after the store of one cell. -/
theorem read_store_singleton {s : State} (hw : MemCanonical s) (a b : Nat) (x : Byte) :
    Memory.read (s.store [(a, x)]).mem b = if b = a then x else Memory.read s.mem b :=
  read_write a b x hw

/-- Settles O50: past the end the command only answers; below it, it is the store of one cell. -/
theorem programByteIsWrittenOrRefused : Obligations.ProgramByteIsWrittenOrRefused := by
  unfold Obligations.ProgramByteIsWrittenOrRefused
  refine fun s offset value rest h => ⟨fun hge => ?_, fun hlt hw => ?_⟩
  · exact step_of_answer h (writeProgramByte_of_ge hge)
  · refine ⟨_, step_of_finish h (writeProgramByte_of_lt hlt) rfl, ?_, fun a ha => ?_, rfl⟩
    · exact (read_store_singleton hw _ _ value).trans (if_pos rfl)
    · exact (read_store_singleton hw _ a value).trans (if_neg ha)

/-! ### `set_keys` -/

/-- Settles O51: the command is performed by the replacement of `KEYS`. -/
theorem setKeysReplacesTheMask : Obligations.SetKeysReplacesTheMask := by
  unfold Obligations.SetKeysReplacesTheMask
  exact fun s bitmask rest h => step_of_finish (u := { s with keys := bitmask, pending := rest }) h rfl rfl

end Sys2Proof.Machine.Proofs
end

section
/-!
PROOFS of the family 70_reset_and_hazards: the cells `start` writes, and the state it answers.
-/

namespace Sys2Proof.Machine.Proofs

open Sys2Proof.Machine.Laws

/-! ### The cells of the fonts (R341) -/

section Cells

variable {m : Memory} {cs : List Host.Cell} {n : Nat}

/-- Cells whose addresses are those from 0 up to a bound inside the memory: each cell's byte stands at its address. -/
theorem read_writeAll_of_mem_block (hw : Memory.wf m = true) (hcs : cs.map Prod.fst = List.range n) (hn : n ≤ memSize)
    {c : Host.Cell} (hc : c ∈ cs) : Memory.read (Memory.writeAll m cs) c.1 = c.2 := by
  have hlt : ∀ d ∈ cs, d.1 < memSize := fun d hd =>
    (List.mem_range.mp (hcs ▸ List.mem_map_of_mem hd)).trans_le hn
  have hnodup : (cs.map Prod.fst).Nodup := hcs ▸ List.nodup_range
  obtain ⟨pre, post, rfl⟩ := List.append_of_mem hc
  refine read_writeAll_at hw hlt fun d hd e => ?_
  rw [List.map_append, List.map_cons] at hnodup
  exact (List.nodup_cons.mp hnodup.of_append_right).1 (e ▸ List.mem_map_of_mem hd)

/-- Such cells leave every address from the bound on. -/
theorem read_writeAll_above_block (hw : Memory.wf m = true) (hcs : cs.map Prod.fst = List.range n) (hn : n ≤ memSize)
    {a : Nat} (ha : n ≤ a) : Memory.read (Memory.writeAll m cs) a = Memory.read m a := by
  have hlt : ∀ d ∈ cs, d.1 < n := fun d hd => List.mem_range.mp (hcs ▸ List.mem_map_of_mem hd)
  exact read_writeAll_other hw (fun d hd => (hlt d hd).trans_le hn) (fun d hd => ((hlt d hd).trans_le ha).ne)

end Cells

/-- The first address past the fonts that `start` loads. -/
def fontEnd (c : Config) : Nat := if c.fontLarge.isSome then 240 else 80

theorem fontEnd_of_small {c : Config} (h : c.fontLarge = none) : fontEnd c = 80 := by simp [fontEnd, h]

theorem fontEnd_of_large {c : Config} {f : Vector Byte 160} (h : c.fontLarge = some f) : fontEnd c = 240 := by
  simp [fontEnd, h]

theorem fontEnd_le_memSize (c : Config) : fontEnd c ≤ memSize := by
  unfold fontEnd
  split <;> decide

/-- R341: the fonts fill the memory from 0 up to their end, with no gap and no address twice. -/
theorem fontCells_addresses (c : Config) : (fontCells c).map Prod.fst = List.range (fontEnd c) := by
  cases h : c.fontLarge with
  | none => simp [fontCells, fontEnd_of_small h, h, Function.comp_def]
  | some f => simpa [fontCells, fontEnd_of_large h, h, Function.comp_def] using (List.range_add (n := 80) (m := 160)).symm

theorem small_mem_fontCells (c : Config) {k : Nat} (h : k < 80) : (k, c.fontSmall[k]) ∈ fontCells c := by
  simp [fontCells, h]

theorem large_mem_fontCells {c : Config} {f : Vector Byte 160} (hf : c.fontLarge = some f) {k : Nat} (h : k < 160) :
    (80 + k, f[k]) ∈ fontCells c := by
  simp [fontCells, hf, h]

section Loads

variable {m : Memory} {c : Config}

/-- R341: each font byte stands at its address. -/
theorem read_loadFonts_of_mem (hw : Memory.wf m = true) {d : Host.Cell} (hd : d ∈ fontCells c) :
    Memory.read (Memory.writeAll m (fontCells c)) d.1 = d.2 :=
  read_writeAll_of_mem_block hw (fontCells_addresses c) (fontEnd_le_memSize c) hd

/-- R341: past the fonts the memory is not touched. -/
theorem read_loadFonts_of_le (hw : Memory.wf m = true) {a : Nat} (ha : fontEnd c ≤ a) :
    Memory.read (Memory.writeAll m (fontCells c)) a = Memory.read m a :=
  read_writeAll_above_block hw (fontCells_addresses c) (fontEnd_le_memSize c) ha

end Loads

/-! ### `start` -/

/-- R291, R341: the command is performed by `startRun`. -/
theorem step_start {s : State} {now : Millis} {rest : List Command} (h : Commanded s (.start now) rest) :
    step s = .next { State.startRun { s with pending := rest } now with reply := some .nothing } :=
  step_of_finish h rfl rfl

/-- A register file of one byte reads as that byte. -/
theorem reg_of_v_replicate {s : State} {b : Byte} (h : s.v = Vector.replicate 16 b) (k : RegNum) : s.reg k = b := by
  simp only [State.reg, h, Vector.getElem_replicate]

/-- Settles O49: the command is performed by `startRun`, whose stores are the fonts' cells. -/
theorem startBeginsAFreshRun : Obligations.StartBeginsAFreshRun := by
  unfold Obligations.StartBeginsAFreshRun
  intro s now rest h hw
  refine ⟨_, step_start h, reg_of_v_replicate rfl, ?_⟩
  obtain ⟨-, hidle, -⟩ := h
  simp only [State.startRun, true_and, and_true]
  refine ⟨pixel_blank, fun a ha => ?small, fun hnone a ha => ?noLarge, fun f hf => ⟨fun k hk => ?large, fun a ha => ?past⟩,
    hidle⟩
  case small => exact read_loadFonts_of_mem hw (small_mem_fontCells s.cfg ha)
  case noLarge => exact read_loadFonts_of_le hw ((fontEnd_of_small hnone).trans_le ha)
  case large => exact read_loadFonts_of_mem hw (large_mem_fontCells hf hk)
  case past => exact read_loadFonts_of_le hw ((fontEnd_of_large hf).trans_le ha)

end Sys2Proof.Machine.Proofs
end

section
/-!
PROOFS of the family other, 30_encoding: decoding and encoding undo each other, and the rows of the opcode table are the
decoder's.
-/

namespace Sys2Proof.Machine.Proofs

open Sys2Proof.Machine.Laws Sys2Proof.Laws

/-! ### Decoding an encoded instruction -/

/-- R93, R96: each layout's fields are those the decoder reads; the one check is the constraint of `Dxyn`. -/
theorem decode_encode {i : Instr} (h : i.wellFormed = true) : decode (encode i) = .ok i := by
  cases i
  case drw x y n =>
    have hn : n ≠ 0#4 := bne_iff_ne.mp h
    simp [encode, decode, hn]
  case cls => rfl
  case ret => rfl
  all_goals simp [encode, decode, decodeAlu, decodeMisc]

/-- R63: a word is its high byte above its low byte. -/
theorem wordOfBytes_bytes (op : Word) : wordOfBytes (op.extractLsb' 8 8) (op.extractLsb' 0 8) = op := by
  apply BitVec.eq_of_toNat_eq
  rw [toNat_wordOfBytes, BitVec.extractLsb'_toNat, BitVec.extractLsb'_toNat, Nat.shiftRight_eq_div_pow]
  omega

theorem decodeBytes_encodeBytes (i : Instr) : decodeBytes (encodeBytes i) = decode (encode i) :=
  congrArg decode (wordOfBytes_bytes (encode i))

/-- Settles O1: the decoder reads back the fields of each layout, and the two bytes make the word. -/
theorem decodeOfEncode : Obligations.DecodeOfEncode := by
  unfold Obligations.DecodeOfEncode
  exact fun i h => ⟨decode_encode h, (decodeBytes_encodeBytes i).trans (decode_encode h)⟩

/-! ### Encoding a decoded word -/

/-- R96: the instructions with major opcode 8, put together again from their fields. -/
theorem encode_of_decodeAlu {op : Word} {i : Instr} (ht : fieldTop op = 0x8#4) (h : decodeAlu op = .ok i) :
    i.wellFormed = true ∧ encode i = op := by
  unfold decodeAlu at h
  split at h
  case h_10 => cases h
  all_goals
    cases h
    exact ⟨rfl, word_of_txyn op _ _ _ _ ht rfl rfl ‹_›⟩

/-- R96: the instructions with major opcode F, put together again from their fields. -/
theorem encode_of_decodeMisc {op : Word} {i : Instr} (ht : fieldTop op = 0xF#4) (h : decodeMisc op = .ok i) :
    i.wellFormed = true ∧ encode i = op := by
  unfold decodeMisc at h
  split at h
  case h_10 => cases h
  all_goals
    cases h
    exact ⟨rfl, word_of_txk op _ _ _ ht rfl ‹_›⟩

/-- R93, R96: a word that decodes is put together again from the fields of its layout. -/
theorem encode_of_decode {op : Word} {i : Instr} (h : decode op = .ok i) : i.wellFormed = true ∧ encode i = op := by
  unfold decode at h
  split at h
  -- 00E0 and 00EE
  case h_1 =>
    split at h
    · cases h
      exact ⟨rfl, Eq.symm ‹_›⟩
    · split at h
      · cases h
        exact ⟨rfl, Eq.symm ‹_›⟩
      · cases h
  -- nnn
  case h_2 | h_3 | h_11 | h_12 =>
    cases h
    exact ⟨rfl, word_of_tn op _ _ ‹_› rfl⟩
  -- xkk
  case h_4 | h_5 | h_7 | h_8 | h_13 =>
    cases h
    exact ⟨rfl, word_of_txk op _ _ _ ‹_› rfl rfl⟩
  -- xy0
  case h_6 | h_10 =>
    split at h
    · cases h
      exact ⟨rfl, word_of_txyn op _ _ _ _ ‹_› rfl rfl ‹_›⟩
    · cases h
  case h_9 => exact encode_of_decodeAlu ‹_› h
  -- Dxyn and Dxy0
  case h_14 =>
    split at h
    · cases h
      exact ⟨rfl, word_of_txyn op _ _ _ _ ‹_› rfl rfl ‹_›⟩
    · cases h
      exact ⟨bne_iff_ne.mpr ‹_›, word_of_txyn op _ _ _ _ ‹_› rfl rfl rfl⟩
  -- Ex9E and ExA1
  case h_15 =>
    split at h
    · cases h
      exact ⟨rfl, word_of_txk op _ _ _ ‹_› rfl ‹_›⟩
    · split at h
      · cases h
        exact ⟨rfl, word_of_txk op _ _ _ ‹_› rfl ‹_›⟩
      · cases h
  case h_16 => exact encode_of_decodeMisc ‹_› h
  case h_17 => cases h

/-- Settles O2: every arm of the decoder names fields from which its layout gives the word again. -/
theorem encodeOfDecode : Obligations.EncodeOfDecode := by
  unfold Obligations.EncodeOfDecode
  exact fun _ _ h => encode_of_decode h

/-- Settles O3: fourteen words, each decoded by evaluation. -/
theorem wordsOfTheSpecDecode : Obligations.WordsOfTheSpecDecode := by
  unfold Obligations.WordsOfTheSpecDecode
  decide

/-! ### The rows of the opcode table (R98) -/

/-- R97: a refusal names the refused word. -/
theorem eq_unknownOpcode_of_decode {op : Word} {e : DecodeError} (h : decode op = .error e) : .unknownOpcode op = e := by
  unfold decode decodeAlu decodeMisc at h
  repeat' split at h
  all_goals cases h
  all_goals rfl

section Masks

variable {op m p : Word}

/-- A mask with the whole major opcode tells it from the pattern. -/
theorem fieldTop_of_mask (h : op &&& m = p) (hm : fieldTop m = BitVec.allOnes 4) : fieldTop op = fieldTop p := by
  have hand : fieldTop (op &&& m) = fieldTop op &&& fieldTop m := BitVec.extractLsb'_and
  rw [← h, hand, hm, BitVec.and_allOnes]

theorem fieldN_of_mask (h : op &&& m = p) (hm : fieldN m = BitVec.allOnes 4) : fieldN op = fieldN p := by
  have hand : fieldN (op &&& m) = fieldN op &&& fieldN m := BitVec.extractLsb'_and
  rw [← h, hand, hm, BitVec.and_allOnes]

theorem fieldKK_of_mask (h : op &&& m = p) (hm : fieldKK m = BitVec.allOnes 8) : fieldKK op = fieldKK p := by
  have hand : fieldKK (op &&& m) = fieldKK op &&& fieldKK m := BitVec.extractLsb'_and
  rw [← h, hand, hm, BitVec.and_allOnes]

end Masks

/-- R98: a row hits a word under its mask, and under its constraint if it has one. -/
theorem hits_iff {r : OpcodeRow} {op : Word} :
    r.hits op = true ↔ op &&& r.mask = r.pattern ∧ (r.nNotZero = true → fieldN op ≠ 0#4) := by
  cases h : r.nNotZero <;> simp [OpcodeRow.hits, h]

/-! ### No word is refused and hit -/

/-- Every row's mask keeps the major opcode. -/
theorem opcodeRows_mask_top : ∀ r ∈ opcodeRows, fieldTop r.mask = BitVec.allOnes 4 := by decide

/-- The rows with major opcode 0 are the two words of R96. -/
theorem opcodeRows_top0 : ∀ r ∈ opcodeRows, fieldTop r.pattern = 0x0#4 →
    r.mask = BitVec.allOnes 16 ∧ (r.pattern = 0x00E0#16 ∨ r.pattern = 0x00EE#16) := by decide

theorem opcodeRows_top5_top9 : ∀ r ∈ opcodeRows, fieldTop r.pattern = 0x5#4 ∨ fieldTop r.pattern = 0x9#4 →
    fieldN r.mask = BitVec.allOnes 4 ∧ fieldN r.pattern = 0#4 := by decide

theorem opcodeRows_top8 : ∀ r ∈ opcodeRows, fieldTop r.pattern = 0x8#4 →
    fieldN r.mask = BitVec.allOnes 4 ∧ (fieldN r.pattern).toNat ∉ [8, 9, 0xA, 0xB, 0xC, 0xD, 0xF] := by decide

theorem opcodeRows_topE : ∀ r ∈ opcodeRows, fieldTop r.pattern = 0xE#4 →
    fieldKK r.mask = BitVec.allOnes 8 ∧ (fieldKK r.pattern = 0x9E#8 ∨ fieldKK r.pattern = 0xA1#8) := by decide

theorem opcodeRows_topF : ∀ r ∈ opcodeRows, fieldTop r.pattern = 0xF#4 →
    fieldKK r.mask = BitVec.allOnes 8 ∧
      (fieldKK r.pattern).toNat ∈ [0x07, 0x0A, 0x15, 0x18, 0x1E, 0x29, 0x33, 0x55, 0x65] := by decide

/-- R97, R98: a word under a row's mask is none of the unknown words. -/
theorem not_unknownWord_of_mask {r : OpcodeRow} {op : Word} (hr : r ∈ opcodeRows) (h : op &&& r.mask = r.pattern) :
    ¬ UnknownWord op := by
  have htop := fieldTop_of_mask h (opcodeRows_mask_top r hr)
  rw [unknownWord_iff_fieldTop, decodeAlu_eq_error_iff, decodeMisc_eq_error_iff, ← toNat_fieldN, ← toNat_fieldKK, htop]
  rintro (⟨ht, hE0, hEE⟩ | ⟨ht, hn⟩ | ⟨ht, hn⟩ | ⟨ht, h9E, hA1⟩ | ⟨ht, hkk⟩)
  · obtain ⟨hm, hp⟩ := opcodeRows_top0 r hr ht
    rw [hm, BitVec.and_allOnes] at h
    exact hp.elim (fun e => hE0 (h.trans e)) (fun e => hEE (h.trans e))
  · obtain ⟨hm, hp⟩ := opcodeRows_top5_top9 r hr ht
    exact hn ((fieldN_of_mask h hm).trans hp)
  · obtain ⟨hm, hp⟩ := opcodeRows_top8 r hr ht
    exact hp (fieldN_of_mask h hm ▸ hn)
  · obtain ⟨hm, hp⟩ := opcodeRows_topE r hr ht
    have hkk := fieldKK_of_mask h hm
    exact hp.elim (fun e => h9E (hkk.trans e)) (fun e => hA1 (hkk.trans e))
  · obtain ⟨hm, hp⟩ := opcodeRows_topF r hr ht
    exact hkk (fieldKK_of_mask h hm ▸ hp)

/-! ### No word is hit twice -/

/-- The row of `Dxyn`. -/
def drwRow : OpcodeRow := ⟨"DRW_Vx__Vy__n", 0xD000, 0xF000, true⟩

/-- The row of `Dxy0`. -/
def drw16Row : OpcodeRow := ⟨"DRW_Vx__Vy__0", 0xD000, 0xF00F, false⟩

/-- R98: the patterns of two different rows agree under each other's mask for the two rows of DRW only. -/
theorem opcodeRows_overlap : ∀ r ∈ opcodeRows, ∀ q ∈ opcodeRows, r.pattern &&& q.mask = q.pattern &&& r.mask →
    r = q ∨ (r = drwRow ∧ q = drw16Row) ∨ (r = drw16Row ∧ q = drwRow) := by decide

/-- Two patterns that one word has under their masks agree under each other's mask. -/
theorem patterns_agree {op m m' p p' : Word} (h : op &&& m = p) (h' : op &&& m' = p') : p &&& m' = p' &&& m := by
  rw [← h, ← h', BitVec.and_assoc, BitVec.and_assoc, BitVec.and_comm m]

/-- R98: the constraint separates the two rows of DRW. -/
theorem not_hits_drwRow_of_drw16Row {op : Word} (h : drw16Row.hits op = true) : ¬ drwRow.hits op = true := by
  intro hn
  obtain ⟨hmask, -⟩ := hits_iff.mp h
  obtain ⟨-, hconstraint⟩ := hits_iff.mp hn
  exact hconstraint rfl (fieldN_of_mask hmask rfl)

/-- R98: at most one row hits a word. -/
theorem hits_unique {r q : OpcodeRow} {op : Word} (hr : r ∈ opcodeRows) (hq : q ∈ opcodeRows) (h : r.hits op = true)
    (h' : q.hits op = true) : q = r := by
  obtain ⟨hmr, -⟩ := hits_iff.mp h
  obtain ⟨hmq, -⟩ := hits_iff.mp h'
  obtain rfl | ⟨rfl, rfl⟩ | ⟨rfl, rfl⟩ := opcodeRows_overlap q hq r hr (patterns_agree hmq hmr)
  · rfl
  · exact absurd h' (not_hits_drwRow_of_drw16Row h)
  · exact absurd h (not_hits_drwRow_of_drw16Row h')

/-- The one element of a list without repeats that passes a test is all the filter keeps. -/
theorem filter_eq_singleton {α : Type} {l : List α} {p : α → Bool} {a : α} (hl : l.Nodup) (ha : a ∈ l) (hp : p a = true)
    (huniq : ∀ b ∈ l, p b = true → b = a) : l.filter p = [a] := by
  rw [← List.perm_singleton, List.perm_ext_iff_of_nodup (hl.filter p) (List.nodup_singleton a)]
  intro b
  rw [List.mem_filter, List.mem_singleton]
  exact ⟨fun h => huniq b h.1 h.2, fun h => h ▸ ⟨ha, hp⟩⟩

theorem nodup_opcodeRows : opcodeRows.Nodup := by decide

/-- R98: the statements made once per instruction, together. -/
theorem rowStatement : ∀ i : Instr, Row.Statement i
  | .cls => Row.cls
  | .ret => Row.ret
  | .jp x => Row.jp x
  | .call x => Row.call x
  | .seImm x y => Row.seImm x y
  | .sneImm x y => Row.sneImm x y
  | .seReg x y => Row.seReg x y
  | .ldImm x y => Row.ldImm x y
  | .addImm x y => Row.addImm x y
  | .ldReg x y => Row.ldReg x y
  | .orReg x y => Row.orReg x y
  | .andReg x y => Row.andReg x y
  | .xorReg x y => Row.xorReg x y
  | .addReg x y => Row.addReg x y
  | .subReg x y => Row.subReg x y
  | .shr x y => Row.shr x y
  | .subn x y => Row.subn x y
  | .shl x y => Row.shl x y
  | .sneReg x y => Row.sneReg x y
  | .ldI x => Row.ldI x
  | .jpV0 x => Row.jpV0 x
  | .rnd x y => Row.rnd x y
  | .drw x y n => Row.drw x y n
  | .drw16 x y => Row.drw16 x y
  | .skp x => Row.skp x
  | .sknp x => Row.sknp x
  | .ldVxDt x => Row.ldVxDt x
  | .ldVxK x => Row.ldVxK x
  | .ldDtVx x => Row.ldDtVx x
  | .ldStVx x => Row.ldStVx x
  | .addI x => Row.addI x
  | .ldF x => Row.ldF x
  | .ldB x => Row.ldB x
  | .ldMemVx x => Row.ldMemVx x
  | .ldVxMem x => Row.ldVxMem x

/-- R98: exactly one row hits the word of a well-formed instruction, and it bears the instruction's mnemonic. -/
theorem filter_hits_encode {i : Instr} (h : i.wellFormed = true) :
    ∃ r, opcodeRows.filter (fun q => q.hits (encode i)) = [r] ∧ r.mnemonic = i.mnemonic := by
  obtain ⟨r, hr, hname, hhit⟩ := rowStatement i h
  exact ⟨r, filter_eq_singleton nodup_opcodeRows hr hhit fun q hq hq' => hits_unique hr hq hhit hq', hname⟩

/-- R98: no row hits a refused word. -/
theorem filter_hits_of_decode_error {op : Word} {e : DecodeError} (h : decode op = .error e) :
    opcodeRows.filter (fun q => q.hits op) = [] := by
  have hu : UnknownWord op := (decode_eq_error_iff op).mp (h.trans (congrArg _ (eq_unknownOpcode_of_decode h).symm))
  rw [List.filter_eq_nil_iff]
  intro r hr hhit
  obtain ⟨hmask, -⟩ := hits_iff.mp hhit
  exact not_unknownWord_of_mask hr hmask hu

/-- Settles O4: a decoded word is the word of its instruction, whose row alone hits it; the fields a row's mask keeps are never
those of an unknown word; the overlap of the rows is read off the table. -/
theorem opcodeTableAndDecoderAgree : Obligations.OpcodeTableAndDecoderAgree := by
  unfold Obligations.OpcodeTableAndDecoderAgree
  refine ⟨fun op i h => ?_, fun op e h => filter_hits_of_decode_error h, fun r hr q hq hne op h h' => ?_⟩
  · obtain ⟨hwf, rfl⟩ := encode_of_decode h
    exact filter_hits_encode hwf
  · obtain rfl | ⟨rfl, rfl⟩ | ⟨rfl, rfl⟩ := opcodeRows_overlap r hr q hq (patterns_agree h h')
    · exact absurd rfl hne
    · exact .inl ⟨rfl, rfl⟩
    · exact .inr ⟨rfl, rfl⟩

end Sys2Proof.Machine.Proofs
end

section
/-!
PROOFS of the family other, 10_state: what an instruction can do, said once (`exec_cases`), and who writes which field.
-/

namespace Sys2Proof.Machine.Proofs

open Sys2Proof.Machine.Laws

/-! ### What an instruction can do -/

/-- R21, R22: only listed registers differ after the instruction. -/
def OnlyListedRegs (i : Instr) (s t : State) : Prop :=
  ∀ k, t.reg k ≠ s.reg k → NamesDestination i k ∨ (k = 15#4 ∧ i.mnemonic ∈ flagWriters)

/-- R29: no pixel outside the active area was set. -/
def PaintsInside (res : Resolution) (scr scr' : Screen) : Prop :=
  ∀ X Y, resWidth res ≤ X ∨ resHeight res ≤ Y → Screen.pixel scr X Y = false → Screen.pixel scr' X Y = false

/-- What an instruction that answers a state can have done to the fields it may write. -/
inductive ExecCase (s : State) : Instr → State → Prop where
  /-- R314: it raised; only a fetch raises `fetchOutOfRange`. -/
  | raised (i : Instr) (k : FaultKind) (hk : k ≠ .fetchOutOfRange) : ExecCase s i (faulted s k (some (encode i)))
  | wroteRegs (i : Instr) (v : Vector Byte 16) (hv : OnlyListedRegs i s { s.fetched with v := v }) :
      ExecCase s i { s.fetched with v := v }
  | drewByte (x : RegNum) (kk : Byte) :
      ExecCase s (.rnd x kk) { s.fetched.setReg x (Config.randomByte s.draws &&& kk) with draws := s.draws + 1 }
  /-- R42: a jump or a skip from an address that was fetched goes no further than 0x10FE. -/
  | moved (i : Instr) (a : Word) (ha : s.pc.toNat ≤ 4094 → a.toNat ≤ 0x10FE) : ExecCase s i { s with pc := a }
  | popped (a : Word) (hsp : 0 < s.sp.toNat) (ha : a ∈ s.stack) : ExecCase s .ret { s with sp := s.sp - 1#8, pc := a }
  | pushed (nnn : Addr12) (hroom : s.sp.toNat ≠ s.cfg.stackSize) :
      ExecCase s (.call nnn) { s with stack := s.stack.set s.sp.toNat (s.pc + 2#16), sp := s.sp + 1#8,
                                      pc := addrOperand nnn }
  | painted (i : Instr) (scr : Screen) (v : Vector Byte 16)
      (hm : i.mnemonic ∈ ["CLS", "DRW_Vx__Vy__n", "DRW_Vx__Vy__0"]) (hscr : PaintsInside s.res s.screen scr)
      (hv : OnlyListedRegs i s { s.fetched with screen := scr, v := v }) :
      ExecCase s i { s.fetched with screen := scr, v := v }
  | setIndex (i : Instr) (w : Word) (hm : i.mnemonic ∈ ["LD_I__nnn", "ADD_I__Vx", "LD_F__Vx"]) :
      ExecCase s i { s.fetched with i := w }
  | stored (i : Instr) (bs : List Byte) (hm : i.mnemonic ∈ ["LD_B__Vx", "LD__I___Vx"])
      (hbs : ∀ j, j < bs.length → s.access (0 + j) < memSize) : ExecCase s i (s.fetched.store (s.cellsFrom 0 bs))
  | waits (x : RegNum) : ExecCase s (.ldVxK x) { s.fetched with wait := some x }
  | setDt (x : RegNum) : ExecCase s (.ldDtVx x) { s.fetched with dt := s.reg x }
  | setSt (x : RegNum) : ExecCase s (.ldStVx x) { s.fetched with st := s.reg x }

/-- R21: a write to the named destination. -/
theorem onlyListedRegs_setReg {i : Instr} (s : State) {x : RegNum} (b : Byte) (hx : NamesDestination i x) :
    OnlyListedRegs i s (s.fetched.setReg x b) := by
  intro k hk
  by_cases h : k = x
  · exact .inl (h ▸ hx)
  · exact absurd (reg_setReg_other s.fetched b h) hk

/-- R22: a write to the named destination and to `VF`. -/
theorem onlyListedRegs_writeFlagged {i : Instr} (s : State) {x : RegNum} (rf : Byte × Bool) (hx : NamesDestination i x)
    (hm : i.mnemonic ∈ flagWriters) : OnlyListedRegs i s (s.fetched.writeFlagged x rf) := by
  intro k hk
  by_cases h : k = x ∨ k = 15#4
  · obtain rfl | rfl := h
    · exact .inl hx
    · exact .inr ⟨rfl, hm⟩
  · exact absurd (reg_writeFlagged_other s.fetched h rf) hk

/-- R22: a draw writes `VF`. -/
theorem onlyListedRegs_draw {i : Instr} (s : State) (ps : List (Nat × Nat)) (hm : i.mnemonic ∈ flagWriters) :
    OnlyListedRegs i s (s.fetched.draw ps) := by
  intro k hk
  by_cases h : k = 15#4
  · exact .inr ⟨h, hm⟩
  · exact absurd ((reg_draw s.fetched ps k).trans (if_neg h)) hk

/-- R197: a load writes the registers up to the named one. -/
theorem onlyListedRegs_loadRegs (s : State) (x : RegNum) : OnlyListedRegs (.ldVxMem x) s (s.fetched.loadRegs x) := by
  intro k hk
  by_cases h : k.toNat ≤ x.toNat
  · exact .inl h
  · exact absurd ((reg_loadRegs s.fetched x k).trans (if_neg h)) hk

/-- A pixel that no flip of a list names stays. -/
theorem pixel_flipAll_other {ps : List (Nat × Nat)} (hp : ∀ p ∈ ps, p.1 < 128 ∧ p.2 < 64) (scr : Screen) {X Y : Nat}
    (h : (X, Y) ∉ ps) : Screen.pixel (Screen.flipAll scr ps) X Y = Screen.pixel scr X Y := by
  induction ps generalizing scr with
  | nil => rfl
  | cons p ps ih =>
    obtain ⟨hhead, htail⟩ := not_or.mp (List.mem_cons.not.mp h)
    obtain ⟨hx, hy⟩ := hp p List.mem_cons_self
    have hne : ¬ (X = p.1 ∧ Y = p.2) := fun e => hhead (Prod.ext e.1 e.2)
    rw [Screen.flipAll, ih (fun q hq => hp q (List.mem_cons_of_mem _ hq)) _ htail, pixel_flip _ _ _ _ _ hx hy,
      ← Bool.decide_and, decide_eq_false hne, Bool.xor_false]

/-- R211: a sprite lands on pixels of the active area only. -/
theorem paintsInside_sprite (scr : Screen) (res : Resolution) (px py w r0 : Nat) (rows : List (BitVec w)) :
    PaintsInside res scr (Screen.flipAll scr (spritePixels res px py w r0 rows)) := by
  intro X Y hout hoff
  have hnot : (X, Y) ∉ spritePixels res px py w r0 rows := by
    intro hmem
    obtain ⟨hX, hY⟩ := spritePixels_active hmem
    omega
  rw [pixel_flipAll_other (fun p hp => spritePixels_stored hp) scr hnot, hoff]

/-- R91: at an address that can be fetched the increment of `PC` does not wrap. -/
theorem toNat_add_two {pc : Word} (h : pc.toNat ≤ 4094) : (pc + 2#16).toNat = pc.toNat + 2 :=
  BitVec.toNat_add_of_lt (by simp only [BitVec.toNat_ofNat]; omega)

/-- R120: a skip moves `PC` by 2 or by 4. -/
theorem execCase_skipIf {s : State} (i : Instr) (c : Bool) : ExecCase s i (s.fetched.skipIf c) := by
  rw [skipIf_eq]
  refine .moved i _ fun hpc => ?_
  have h2 := toNat_add_two hpc
  have h4 : (s.pc + 2#16 + 2#16).toNat ≤ (s.pc + 2#16).toNat + 2 :=
    (BitVec.toNat_add _ _).trans_le (Nat.mod_le _ _)
  cases c with
  | false => exact h2.trans_le (by omega)
  | true => exact h4.trans (by omega)

/-- R157: the two writes of a result and a flag. -/
theorem execCase_writeFlagged {s : State} (i : Instr) (x : RegNum) (rf : Byte × Bool) (hx : NamesDestination i x)
    (hm : i.mnemonic ∈ flagWriters) : ExecCase s i (s.fetched.writeFlagged x rf) := by
  have hv := onlyListedRegs_writeFlagged s rf hx hm
  rw [writeFlagged_eq] at hv ⊢
  exact .wroteRegs i _ hv

/-- R214, R215: a draw. -/
theorem execCase_draw {s : State} (i : Instr) (px py w r0 : Nat) (rows : List (BitVec w))
    (hm : i.mnemonic ∈ ["DRW_Vx__Vy__n", "DRW_Vx__Vy__0"]) :
    ExecCase s i (s.fetched.draw (spritePixels s.res px py w r0 rows)) := by
  have hflag : i.mnemonic ∈ flagWriters := by
    simp only [List.mem_cons, List.not_mem_nil, or_false] at hm
    obtain h | h := hm <;> rw [h] <;> decide
  exact .painted i _ _ (List.mem_cons_of_mem _ hm) (paintsInside_sprite s.screen s.res px py w r0 rows)
    (onlyListedRegs_draw s _ hflag)

/-- R214: a sprite of at least one row is drawn when its bytes may be read. -/
theorem exec_drw {x y : RegNum} {n : BitVec 4} {s : State} (hn : n ≠ 0#4) :
    exec (.drw x y n) s =
      s.guarded (n.toNat - 1) (encode (.drw x y n))
        (s.fetched.draw (spritePixels s.res (s.reg x).toNat (s.reg y).toNat 8 0 (s.spriteRows n.toNat))) :=
  if_neg hn

/-- What an instruction can do: the inversion of `exec`. -/
theorem exec_cases {i : Instr} {s t : State} (h : exec i s = .next t) : ExecCase s i t := by
  cases i
  case cls =>
    cases h
    exact .painted .cls _ s.v (by decide) (fun X Y _ _ => pixel_blank X Y) (fun _ hk => absurd rfl hk)
  case ret =>
    simp only [exec, execRet] at h
    split at h
    · cases h
      exact .raised .ret _ (by decide)
    · rename_i hsp
      split at h
      · cases h
        have hpos : s.sp.toNat ≠ 0 := fun e => hsp (BitVec.eq_of_toNat_eq e)
        exact .popped _ (Nat.pos_of_ne_zero hpos) (List.mem_of_getElem? ‹_›)
      · cases h
  case call nnn =>
    simp only [exec, execCall] at h
    split at h
    · cases h
      exact .raised _ _ (by decide)
    · split at h
      · cases h
        exact .pushed nnn ‹_›
      · cases h
  case jp nnn =>
    cases h
    exact .moved _ _ fun _ => by rw [toNat_addrOperand]; omega
  case jpV0 nnn =>
    cases h
    exact .moved _ _ fun _ => by rw [toNat_addrOperand_add_zextByte]; omega
  case seImm | sneImm | seReg | sneReg =>
    cases h
    exact execCase_skipIf _ _
  case ldImm | addImm | ldReg | orReg | andReg | xorReg | ldVxDt =>
    cases h
    exact .wroteRegs _ _ (onlyListedRegs_setReg s _ rfl)
  case addReg | subReg | shr | subn | shl =>
    cases h
    exact execCase_writeFlagged _ _ _ rfl (by simp [Instr.mnemonic, flagWriters])
  case rnd x kk =>
    cases h
    exact .drewByte x kk
  case drw x y n =>
    by_cases hn : n = 0#4
    · subst hn
      cases h
    · rw [exec_drw hn] at h
      obtain ⟨-, rfl⟩ | ⟨-, rfl⟩ := guarded_cases h
      · exact .raised _ _ (by decide)
      · exact execCase_draw _ _ _ _ _ _ (by simp [Instr.mnemonic])
  case drw16 x y =>
    obtain ⟨-, rfl⟩ | ⟨-, rfl⟩ := guarded_cases h
    · exact .raised _ _ (by decide)
    · exact execCase_draw _ _ _ _ _ _ (by simp [Instr.mnemonic])
  case skp | sknp =>
    simp only [exec, execSkp, execSknp] at h
    split at h
    · cases h
      exact .raised _ _ (by decide)
    · cases h
      exact execCase_skipIf _ _
  case ldVxK x =>
    cases h
    exact .waits x
  case ldDtVx x =>
    cases h
    exact .setDt x
  case ldStVx x =>
    cases h
    exact .setSt x
  case ldI | addI | ldF =>
    cases h
    exact .setIndex _ _ (by simp [Instr.mnemonic])
  case ldB x =>
    obtain ⟨-, rfl⟩ | ⟨hr, rfl⟩ := guarded_cases h
    · exact .raised _ _ (by decide)
    · exact .stored _ _ (by simp [Instr.mnemonic]) fun j hj => access_lt hr (by rw [length_bcdDigits] at hj; omega)
  case ldMemVx x =>
    obtain ⟨-, rfl⟩ | ⟨hr, rfl⟩ := guarded_cases h
    · exact .raised _ _ (by decide)
    · exact .stored _ _ (by simp [Instr.mnemonic]) fun j hj => access_lt hr (by rw [length_regsUpTo] at hj; omega)
  case ldVxMem x =>
    obtain ⟨-, rfl⟩ | ⟨-, rfl⟩ := guarded_cases h
    · exact .raised _ _ (by decide)
    · exact .wroteRegs _ _ (onlyListedRegs_loadRegs s x)

/-! ### Who writes which field -/

/-- R27, R30 to R33, R35: what no instruction writes. -/
structure InstrFrame (s t : State) : Prop where
  keys : t.keys = s.keys
  res : t.res = s.res
  scrollX : t.scrollX = s.scrollX
  scrollY : t.scrollY = s.scrollY
  epoch : t.epoch = s.epoch
  cpuTicks : t.cpuTicks = s.cpuTicks
  timerTicks : t.timerTicks = s.timerTicks
  started : t.started = s.started
  cfg : t.cfg = s.cfg
  advancing : t.advancing = s.advancing
  pending : t.pending = s.pending
  reply : t.reply = s.reply

section Fields

variable {i : Instr} {s t : State}

theorem ExecCase.frame (h : ExecCase s i t) : InstrFrame s t := by
  cases h <;> constructor <;> rfl

theorem ExecCase.onlyListedRegs (h : ExecCase s i t) : OnlyListedRegs i s t := by
  cases h
  case wroteRegs hv => exact hv
  case painted hv => exact hv
  case drewByte x kk => exact onlyListedRegs_setReg s _ rfl
  all_goals exact fun _ hk => absurd rfl hk

/-- R262: an instruction raises, or leaves the latch. -/
theorem ExecCase.fault (h : ExecCase s i t) :
    (∃ k, k ≠ .fetchOutOfRange ∧ t = faulted s k (some (encode i))) ∨ t.fault = s.fault := by
  cases h
  case raised k hk => exact .inl ⟨k, hk, rfl⟩
  all_goals exact .inr rfl

end Fields

/-- Settles O32: the listed registers, case by case. -/
theorem registerWritersAreTheListed : Obligations.RegisterWritersAreTheListed := by
  unfold Obligations.RegisterWritersAreTheListed
  exact fun _ _ _ k h => (exec_cases h).onlyListedRegs k

/-- R24 to R29, R76: the fields that some instruction writes, each with the mnemonics listed for it. -/
theorem ExecCase.listedWriters {i : Instr} {s t : State} (h : ExecCase s i t) :
    (i.mnemonic ∉ ["LD_B__Vx", "LD__I___Vx"] → SameBytes s t) ∧
    (i.mnemonic ∉ ["LD_I__nnn", "ADD_I__Vx", "LD_F__Vx"] → t.i = s.i) ∧
    (i.mnemonic ∉ ["CLS", "DRW_Vx__Vy__n", "DRW_Vx__Vy__0"] → t.screen = s.screen) ∧
    (i.mnemonic ≠ "CALL_nnn" → t.stack = s.stack) ∧ (i.mnemonic ∉ ["CALL_nnn", "RET"] → t.sp = s.sp) ∧
    (i.mnemonic ≠ "LD_DT__Vx" → t.dt = s.dt) ∧ (i.mnemonic ≠ "LD_ST__Vx" → t.st = s.st) ∧
    (i.mnemonic ≠ "LD_Vx__K" → t.wait = s.wait) ∧ (i.mnemonic ≠ "RND_Vx__kk" → t.draws = s.draws) := by
  cases h with
  | stored _ _ hm => exact ⟨fun hn => absurd hm hn, by simp⟩
  | setIndex _ _ hm => exact ⟨fun _ _ => rfl, fun hn => absurd hm hn, by simp⟩
  | painted _ _ _ hm => exact ⟨fun _ _ => rfl, fun _ => rfl, fun hn => absurd hm hn, by simp⟩
  | _ => simp [SameBytes, Instr.mnemonic, faulted]

/-- Settles O33: the fields with listed writers, and those no instruction writes. -/
theorem otherStateWritersAreTheListed : Obligations.OtherStateWritersAreTheListed := by
  unfold Obligations.OtherStateWritersAreTheListed
  intro i s t h
  obtain ⟨hmem, hi, hscreen, hstack, hsp, hdt, hst, hwait, hdraws⟩ := (exec_cases h).listedWriters
  obtain ⟨hkeys, hres, hX, hY, hepoch, hcpu, htimer, hstarted, hcfg, hadv, hpend, hreply⟩ := (exec_cases h).frame
  exact ⟨hmem, hi, hstack, hsp, hdt, hst, hwait, hscreen, hdraws, hkeys, hres, hX, hY, hepoch, hcpu, htimer, hstarted, hcfg,
    hadv, hpend, hreply⟩

end Sys2Proof.Machine.Proofs
end

section
/-!
PROOFS of the family other, the invariants of memory, stack, `PC` and screen: what a host command can do, said once
(`perform_cases`), what a step can do to those fields, said once (`machineCase_of_step`), and each invariant from that.
-/

namespace Sys2Proof.Machine.Proofs

open Sys2Proof.Machine.Laws

/-! ### What a host command can do -/

/-- What performing a host command can do (R291). -/
inductive CommandCase (s : State) : Command → State → Prop where
  | alloc : CommandCase s .alloc (s.allocAgain.finish .nothing)
  | started (now : Millis) : CommandCase s (.start now) ((s.startRun now).finish .nothing)
  | wroteByte (offset : Nat) (value : Byte) (h : progStart + offset < memSize) :
      CommandCase s (.writeProgramByte offset value) ((s.store [(progStart + offset, value)]).finish .ok)
  | setKeys (bitmask : Word) : CommandCase s (.setKeys bitmask) ({ s with keys := bitmask }.finish .nothing)
  /-- R255: an `advance` that passes both guards. -/
  | began (now : Millis) (hs : s.started = true) (hf : s.fault = none) :
      CommandCase s (.advance now) { (s.skew now).resolveWait with advancing := some now, reply := none }
  /-- A query, or a command refused. -/
  | answered (c : Command) (r : Reply) : CommandCase s c (s.finish r)

/-- R255: the beginning of an `advance` that passes both guards. -/
theorem beginAdvance_of_started_of_no_fault {s : State} (now : Millis) (hs : s.started = true) (hf : s.fault = none) :
    s.beginAdvance now = { (s.skew now).resolveWait with advancing := some now, reply := none } := by
  rw [State.beginAdvance, if_pos hs, hf]

theorem writeProgramByte_cases (s : State) (offset : Nat) (value : Byte) :
    CommandCase s (.writeProgramByte offset value) (s.writeProgramByte offset value) := by
  obtain h | h := Nat.lt_or_ge (progStart + offset) memSize
  · rw [writeProgramByte_of_lt h]
    exact .wroteByte offset value h
  · rw [writeProgramByte_of_ge h]
    exact .answered _ _

theorem beginAdvance_cases (s : State) (now : Millis) : CommandCase s (.advance now) (s.beginAdvance now) := by
  cases hs : s.started with
  | false =>
    rw [beginAdvance_of_not_started now hs]
    exact .answered _ _
  | true =>
    cases hf : s.fault with
    | none =>
      rw [beginAdvance_of_started_of_no_fault now hs hf]
      exact .began now hs hf
    | some f =>
      rw [beginAdvance_of_fault now hs hf]
      exact .answered _ _

/-- What a host command can do: the inversion of `perform`. -/
theorem perform_cases (s : State) (c : Command) : CommandCase s c (s.perform c) := by
  cases c with
  | alloc => exact .alloc
  | start now => exact .started now
  | writeProgramByte offset value => exact writeProgramByte_cases s offset value
  | setKeys bitmask => exact .setKeys bitmask
  | advance now => exact beginAdvance_cases s now
  | pixel | isToneActive | cpuRateHz | timerRateHz => exact .answered _ _

/-! ### What a step can do to memory, stack, `PC` and screen -/

/-- Memory, stack, `PC`, the screen with its settings, and the parameters are as before. -/
structure KeepsMachine (s t : State) : Prop where
  cfg : t.cfg = s.cfg
  mem : t.mem = s.mem
  pc : t.pc = s.pc
  stack : t.stack = s.stack
  sp : t.sp = s.sp
  screen : t.screen = s.screen
  res : t.res = s.res
  scrollX : t.scrollX = s.scrollX
  scrollY : t.scrollY = s.scrollY

theorem KeepsMachine.refl (s : State) : KeepsMachine s s := by constructor <;> rfl

theorem KeepsMachine.trans {s t u : State} (h : KeepsMachine s t) (h' : KeepsMachine t u) : KeepsMachine s u :=
  ⟨h'.cfg.trans h.cfg, h'.mem.trans h.mem, h'.pc.trans h.pc, h'.stack.trans h.stack, h'.sp.trans h.sp,
    h'.screen.trans h.screen, h'.res.trans h.res, h'.scrollX.trans h.scrollX, h'.scrollY.trans h.scrollY⟩

theorem keepsMachine_skew (s : State) (now : Millis) : KeepsMachine s (s.skew now) := by
  rw [skew_eq]
  constructor <;> rfl

theorem keepsMachine_resolveWait (s : State) : KeepsMachine s s.resolveWait := by
  rw [resolveWait_eq]
  constructor <;> rfl

/-- What a step that answers a state can have done to memory, stack, `PC` and screen. -/
inductive MachineCase (s : State) : State → Prop where
  | kept {t : State} (h : KeepsMachine s t) : MachineCase s t
  /-- R92, R259: an instruction ran, at an address that was fetched. -/
  | ran {i : Instr} {u t : State} (hpc : s.pc.toNat ≤ 4094) (hx : ExecCase s i u) (h : KeepsMachine u t) : MachineCase s t
  | allocated {t : State} (h : KeepsMachine (State.alloc s.cfg) t) : MachineCase s t
  | started {now : Millis} {t : State} (h : KeepsMachine (s.startRun now) t) : MachineCase s t
  | wroteByte {a : Nat} {b : Byte} {t : State} (ha : a < memSize) (h : KeepsMachine (s.store [(a, b)]) t) :
      MachineCase s t

theorem machineCase_of_instrCase {s u t : State} (h : InstrCase s u) (hk : KeepsMachine u t) : MachineCase s t := by
  cases h with
  | fetchFault | unknown => exact .kept (KeepsMachine.trans (by constructor <;> rfl) hk)
  | run _ _ _ hf hd hx => exact .ran (fetch_eq_some.mp hf).1 (exec_cases hx) hk

theorem machineCase_of_commandCase {s t : State} {c : Command} {rest : List Command}
    (h : CommandCase { s with pending := rest } c t) : MachineCase s t := by
  cases h with
  | alloc => exact .allocated (by constructor <;> rfl)
  | started now => exact .started (now := now) (by constructor <;> simp only [State.startRun, State.finish])
  | wroteByte offset value hlt => exact .wroteByte (a := progStart + offset) (b := value) hlt (by constructor <;> rfl)
  | setKeys | answered => exact .kept (by constructor <;> rfl)
  | began now =>
    have hbegun := (keepsMachine_skew { s with pending := rest } now).trans (keepsMachine_resolveWait _)
    exact .kept ⟨hbegun.cfg, hbegun.mem, hbegun.pc, hbegun.stack, hbegun.sp, hbegun.screen, hbegun.res, hbegun.scrollX,
      hbegun.scrollY⟩

/-- What a step can do to memory, stack, `PC` and screen. -/
theorem machineCase_of_step {s t : State} (h : step s = .next t) : MachineCase s t := by
  obtain ⟨-, hc⟩ := step_cases h
  cases hc with
  | instrDone _ u _ _ _ _ _ hi => exact machineCase_of_instrCase hi (by constructor <;> rfl)
  | instrFault _ _ _ _ _ _ _ _ hi => exact machineCase_of_instrCase hi (.refl _)
  | command c rest => exact machineCase_of_commandCase (perform_cases _ c)
  | _ => exact .kept (by constructor <;> rfl)

/-- A property of memory, stack, `PC` and screen that power-on has, and that an instruction, `start` and the write of a program
byte keep, is kept by every step. -/
theorem step_keeps {P : State → Prop} (hkept : ∀ {s t : State}, KeepsMachine s t → P s → P t)
    (hran : ∀ {s t : State} {i : Instr}, s.pc.toNat ≤ 4094 → ExecCase s i t → P s → P t)
    (halloc : ∀ s : State, P s → P (State.alloc s.cfg)) (hstart : ∀ (s : State) (now : Millis), P s → P (s.startRun now))
    (hbyte : ∀ (s : State) (a : Nat) (b : Byte), a < memSize → P s → P (s.store [(a, b)])) {s t : State} (hP : P s)
    (h : step s = .next t) : P t := by
  cases machineCase_of_step h with
  | kept hk => exact hkept hk hP
  | ran hpc hx hk => exact hkept hk (hran hpc hx hP)
  | allocated hk => exact hkept hk (halloc s hP)
  | started hk => exact hkept hk (hstart s _ hP)
  | wroteByte ha hk => exact hkept hk (hbyte s _ _ ha hP)

/-! ### Memory -/

theorem startRun_mem (s : State) (now : Millis) : (s.startRun now).mem = Memory.writeAll s.mem (fontCells s.cfg) := by
  simp only [State.startRun]

/-- R341: the fonts lie inside the memory. -/
theorem fontCells_lt (c : Config) : ∀ d ∈ fontCells c, d.1 < memSize := by
  intro d hd
  have hmem : d.1 ∈ List.range (fontEnd c) := fontCells_addresses c ▸ List.mem_map_of_mem hd
  exact (List.mem_range.mp hmem).trans_le (fontEnd_le_memSize c)

theorem memCanonical_of_exec {i : Instr} {s t : State} (h : ExecCase s i t) (hw : MemCanonical s) : MemCanonical t := by
  cases h with
  | stored _ bs _ hbs => exact wf_store hw hbs
  | _ => exact hw

/-- Settles O56: an instruction stores at checked addresses, `start` loads the fonts at low ones, and a program byte's offset is
checked. -/
theorem memoryStaysCanonical : Obligations.MemoryStaysCanonical := by
  unfold Obligations.MemoryStaysCanonical
  refine fun s t => step_keeps (fun hk hw => ?_) (fun _ => memCanonical_of_exec) (fun _ _ => rfl) (fun s now hw => ?_)
    (fun s a b ha hw => wf_write b hw ha)
  · rwa [MemCanonical, hk.mem]
  · rw [MemCanonical, startRun_mem]
    exact wf_writeAll hw (fontCells_lt s.cfg)

/-! ### `PC` and the stack's entries -/

theorem pcBounded_of_exec {i : Instr} {s t : State} (hpc : s.pc.toNat ≤ 4094) (h : ExecCase s i t) (hb : PcBounded s) :
    PcBounded t := by
  obtain ⟨-, hstack⟩ := hb
  have hnext := toNat_add_two hpc
  cases h with
  | raised => exact ⟨by simp only [faulted]; omega, hstack⟩
  | moved _ a ha => exact ⟨ha hpc, hstack⟩
  | popped a _ ha => exact ⟨(hstack a ha).trans (by decide), hstack⟩
  | pushed nnn =>
    refine ⟨by simp only [toNat_addrOperand]; omega, fun a ha => ?_⟩
    obtain ha | rfl := List.mem_or_eq_of_mem_set ha
    · exact hstack a ha
    · omega
  | _ => exact ⟨hnext.trans_le (by omega), hstack⟩

/-- R42: the stack is all 0 and `PC` is `PROG_START`. -/
theorem pcBounded_of_fresh {s : State} {n : Nat} (hpc : s.pc = 0x200#16) (hstack : s.stack = List.replicate n 0#16) :
    PcBounded s := by
  refine ⟨by rw [hpc]; decide, fun a ha => ?_⟩
  rw [hstack] at ha
  rw [List.eq_of_mem_replicate ha]
  decide

/-- Settles O57: an instruction that runs was fetched at 4094 or below, and no jump, skip or push from there goes past the
bounds. -/
theorem pcStaysBounded : Obligations.PcStaysBounded := by
  unfold Obligations.PcStaysBounded
  refine fun s t => step_keeps (fun hk hb => ?_) pcBounded_of_exec (fun _ _ => pcBounded_of_fresh rfl rfl)
    (fun _ _ _ => pcBounded_of_fresh rfl rfl) (fun _ _ _ _ hb => hb)
  rwa [PcBounded, hk.pc, hk.stack]

/-! ### The screen -/

theorem screenConfined_of_exec {i : Instr} {s t : State} (h : ExecCase s i t) (hc : ScreenConfined s) : ScreenConfined t := by
  cases h with
  | painted _ _ _ _ hscr => exact fun X Y hout => hscr X Y hout (hc X Y hout)
  | _ => exact hc

/-- Settles O58: what is painted lies inside the active area, `alloc` and `start` blank the screen and set `RES`, and nothing
else writes the display's fields. -/
theorem screenStaysConfined : Obligations.ScreenStaysConfined := by
  unfold Obligations.ScreenStaysConfined
  intro s t hc hd
  refine step_keeps (P := fun s => ScreenConfined s ∧ DisplayConfigured s) (fun hk hP => ?_) (fun _ hx hP => ?_)
    (fun s _ => ⟨fun X Y _ => pixel_blank X Y, rfl, rfl, rfl⟩) (fun s now _ => ⟨fun X Y _ => pixel_blank X Y, rfl, rfl, rfl⟩)
    (fun _ _ _ _ hP => hP) ⟨hc, hd⟩
  · rwa [ScreenConfined, DisplayConfigured, hk.screen, hk.res, hk.cfg, hk.scrollX, hk.scrollY]
  · obtain ⟨hc, hres, hX, hY⟩ := hP
    have hf := hx.frame
    exact ⟨screenConfined_of_exec hx hc, by rw [hf.res, hf.cfg, hres], hf.scrollX.trans hX, hf.scrollY.trans hY⟩

/-! ### The stack, and that a step always answers -/

theorem stackBounded_of_exec {i : Instr} {s t : State} (h : ExecCase s i t) (hv : s.cfg.valid = true) (hb : StackBounded s) :
    StackBounded t := by
  obtain ⟨hlen, hsp⟩ := hb
  cases h with
  | popped _ hpos => exact ⟨hlen, by simp only [toNat_sub_one hpos]; omega⟩
  | pushed _ hne =>
    have hroom : s.sp.toNat < s.cfg.stackSize := by omega
    exact ⟨(List.length_set).trans hlen, (toNat_sp_add_one hv hroom).trans_le hroom⟩
  | _ => exact ⟨hlen, hsp⟩

/-- R25: a step keeps the bounded stack under the same parameters. -/
theorem stackBounded_of_step {s t : State} (hv : s.cfg.valid = true) (hb : StackBounded s) (h : step s = .next t) :
    StackBounded t ∧ t.cfg = s.cfg := by
  refine step_keeps (P := fun u => StackBounded u ∧ u.cfg = s.cfg) (fun hk hP => ?_) (fun _ hx hP => ?_) (fun u hP => ?_)
    (fun u now hP => ?_) (fun _ _ _ _ hP => hP) ⟨hb, rfl⟩ h
  · rwa [StackBounded, hk.stack, hk.sp, hk.cfg]
  · obtain ⟨hb, hcfg⟩ := hP
    exact ⟨stackBounded_of_exec hx (hcfg ▸ hv) hb, hx.frame.cfg.trans hcfg⟩
  · exact ⟨⟨List.length_replicate, Nat.zero_le _⟩, hP.2⟩
  · exact ⟨⟨List.length_replicate, Nat.zero_le _⟩, hP.2⟩

theorem guarded_answers (s e : State) (kmax : Nat) (op : Word) : ∃ t, s.guarded kmax op e = .next t := by
  by_cases hr : DataInRange s kmax
  · exact ⟨_, guarded_pass hr⟩
  · exact ⟨_, guarded_fault hr⟩

/-- R25: on a bounded stack every well-formed instruction has a next state. -/
theorem exec_answers {i : Instr} {s : State} (hi : i.wellFormed = true) (hb : StackBounded s) : ∃ t, exec i s = .next t := by
  obtain ⟨hlen, hsp⟩ := hb
  cases i
  case ret =>
    obtain h0 | hpos := Nat.eq_zero_or_pos s.sp.toNat
    · exact ⟨_, exec_ret_of_empty h0⟩
    · exact ⟨_, exec_ret_of_top hpos (List.getElem?_eq_getElem (by omega))⟩
  case call nnn =>
    obtain hfull | hroom := Nat.eq_or_lt_of_le hsp
    · exact ⟨_, exec_call_of_full hfull⟩
    · exact ⟨_, exec_call_of_room ⟨hlen, hsp⟩ hroom⟩
  case skp x =>
    obtain hout | hkey := Nat.lt_or_ge 15 (s.reg x).toNat
    · exact ⟨_, exec_skp_of_outOfRange hout⟩
    · exact ⟨_, exec_skp_of_key hkey⟩
  case sknp x =>
    obtain hout | hkey := Nat.lt_or_ge 15 (s.reg x).toNat
    · exact ⟨_, exec_sknp_of_outOfRange hout⟩
    · exact ⟨_, exec_sknp_of_key hkey⟩
  case drw x y n =>
    rw [exec_drw (bne_iff_ne.mp hi)]
    exact guarded_answers _ _ _ _
  case drw16 | ldB | ldMemVx | ldVxMem => exact guarded_answers _ _ _ _
  all_goals exact ⟨_, rfl⟩

/-- R91: an instruction step answers, for a word that decodes is a well-formed instruction. -/
theorem instructionStep_answers {s : State} (hb : StackBounded s) : ∃ t, instructionStep s = .next t := by
  cases hf : s.fetch with
  | none => exact ⟨_, instructionStep_of_fetch_none hf⟩
  | some op =>
    cases hd : decode op with
    | error e => exact ⟨_, instructionStep_of_decode_error hf hd⟩
    | ok i =>
      rw [instructionStep_of_decode_ok hf hd]
      exact exec_answers (encode_of_decode hd).1 hb

theorem cpuTick_answers {s : State} (hb : StackBounded s) : ∃ t, cpuTick s = .next t := by
  cases hw : s.wait with
  | some r => exact ⟨_, cpuTick_of_waiting hw⟩
  | none =>
    obtain ⟨t, ht⟩ := instructionStep_answers hb
    exact ⟨_, by rw [cpuTick, hw, ht, countIfDone_next]⟩

theorem advanceStep_answers {s : State} (now : Millis) (hb : StackBounded s) : ∃ t, advanceStep now s = .next t := by
  unfold advanceStep
  split
  · exact ⟨_, rfl⟩
  · split
    · split
      · exact ⟨_, rfl⟩
      · exact cpuTick_answers hb
    · split <;> exact ⟨_, rfl⟩
    · exact ⟨_, rfl⟩

theorem step_answers {s : State} (hv : s.cfg.valid = true) (hb : StackBounded s) : ∃ t, step s = .next t := by
  unfold step machineStep
  rw [if_pos hv]
  split
  · exact advanceStep_answers _ hb
  · split <;> exact ⟨_, rfl⟩

/-- Settles O55: the model's stops need a malformed term, parameters out of range or a stack index outside. -/
theorem machineNeverStops : Obligations.MachineNeverStops := by
  unfold Obligations.MachineNeverStops
  intro s hv hb
  obtain ⟨t, ht⟩ := step_answers hv hb
  exact ⟨t, ht, stackBounded_of_step hv hb ht⟩

end Sys2Proof.Machine.Proofs
end

section
/-!
PROOFS of the family other, 45_scheduler: the deadlines, what the tick loop of a running `advance` can do, said once
(`tickCase_of_step`), its end, and the beginning of an `advance`.
-/

namespace Sys2Proof.Machine.Proofs

open Sys2Proof.Machine.Laws

/-! ### Deadlines (R252) -/

theorem deadlineOffset_zero (m : DeadlineMode) (hz : Nat) : deadlineOffset m 0 hz = 0 := by
  cases m <;> simp [deadlineOffset]

/-- R265: a clock's deadline grows by at least 1 ms a tick. -/
theorem deadlineOffset_succ (m : DeadlineMode) (k : Nat) {hz : Nat} (h1 : 1 ≤ hz) (h2 : hz ≤ 1000) :
    deadlineOffset m k hz + 1 ≤ deadlineOffset m (k + 1) hz := by
  cases m with
  | integerPeriod =>
    have hperiod : 1 ≤ 1000 / hz := Nat.div_pos h2 h1
    simp only [deadlineOffset, Nat.add_one_mul]
    omega
  | exactRatio =>
    calc k * 1000 / hz + 1 = (k * 1000 + hz) / hz := (Nat.add_div_right _ h1).symm
      _ ≤ (k + 1) * 1000 / hz := Nat.div_le_div_right (by omega)

/-- R252: the modes agree for a rate that divides 1000. -/
theorem deadlineOffset_modes_agree (k : Nat) {hz : Nat} (h : hz ∣ 1000) :
    deadlineOffset .integerPeriod k hz = deadlineOffset .exactRatio k hz :=
  (Nat.mul_div_assoc k h).symm

/-- Settles O34: the formulas are the definition's, with 16 ms for the timer's period; the growth is `deadlineOffset_succ`. -/
theorem deadlinesGrowWithEveryTick : Obligations.DeadlinesGrowWithEveryTick := by
  unfold Obligations.DeadlinesGrowWithEveryTick
  refine ⟨fun s hm => ?_, fun s hm => ?_, ⟨rfl, rfl⟩, fun m k hz => deadlineOffset_succ m k,
    fun k hz _ => deadlineOffset_modes_agree k⟩
  · simp [State.cpuDeadline, State.timerDeadline, deadlineOffset, hm, timerHz]
  · simp [State.cpuDeadline, State.timerDeadline, deadlineOffset, hm, timerHz]

/-- Settles O35: the bound on each deadline, solved for its number. -/
theorem ticksOfTheFirstSecond : Obligations.TicksOfTheFirstSecond := by
  unfold Obligations.TicksOfTheFirstSecond
  refine ⟨fun m k => ?_, fun k => ⟨?_, ?_⟩⟩
  · cases m <;> simp only [deadlineOffset] <;> omega
  · simp only [deadlineOffset, timerHz]
    omega
  · simp only [deadlineOffset, timerHz]
    omega

/-- R265: the CPU's deadline is at least its count of milliseconds after `EPOCH`. -/
theorem epoch_add_cpuTicks_le {s : State} (hv : s.cfg.valid = true) : s.epoch.toNat + s.cpuTicks.toNat ≤ s.cpuDeadline := by
  obtain ⟨h1, h2⟩ := cpuHz_range hv
  exact Nat.add_le_add_left (le_deadlineOffset _ _ _ h1 h2) _

theorem epoch_add_timerTicks_le (s : State) : s.epoch.toNat + s.timerTicks.toNat ≤ s.timerDeadline :=
  Nat.add_le_add_left (le_deadlineOffset _ _ _ (by decide) (by decide)) _

theorem cpuTicks_ne_lastTick {s : State} {now : Millis} (hv : s.cfg.valid = true) (h : s.cpuDeadline < now.toNat) :
    s.cpuTicks ≠ lastTick := by
  obtain ⟨h1, h2⟩ := cpuHz_range hv
  exact due_ne_lastTick h1 h2 h

theorem timerTicks_ne_lastTick {s : State} {now : Millis} (h : s.timerDeadline < now.toNat) : s.timerTicks ≠ lastTick :=
  due_ne_lastTick (hz := timerHz) (by decide) (by decide) h

/-- R254, R266: with both counters 0, both deadlines are `EPOCH`. -/
theorem deadlines_of_anchored {s : State} (hc : s.cpuTicks = 0#64) (ht : s.timerTicks = 0#64) :
    s.cpuDeadline = s.epoch.toNat ∧ s.timerDeadline = s.epoch.toNat := by
  simp [State.cpuDeadline, State.timerDeadline, hc, ht, deadlineOffset_zero]

/-- Settles O45: a deadline is no less than its count of milliseconds after `EPOCH`; an anchored clock is at its first tick. -/
theorem reanchoringIsNeverDue : Obligations.ReanchoringIsNeverDue := by
  unfold Obligations.ReanchoringIsNeverDue
  intro s now ⟨hv, _, _⟩
  exact ⟨fun h => ⟨(epoch_add_cpuTicks_le hv).trans_lt h, cpuTicks_ne_lastTick hv h⟩,
    fun h => ⟨(epoch_add_timerTicks_le s).trans_lt h, timerTicks_ne_lastTick h⟩,
    deadlines_of_anchored (s := s.reanchor now) rfl rfl⟩

/-! ### What the tick loop can do -/

theorem InstrFrame.refl (s : State) : InstrFrame s s := by constructor <;> rfl

theorem frame_of_instrCase {s t : State} (h : InstrCase s t) : InstrFrame s t := by
  cases h with
  | fetchFault | unknown => constructor <;> rfl
  | run _ _ _ _ _ hx => exact (exec_cases hx).frame

/-- What a step of a running `advance` with no fault latched can do (R257 to R263); re-anchoring is never due (R265). -/
inductive TickCase (s : State) (now : Millis) : State → Prop where
  | counted {u : State} (hdue : CpuDue s now) (hf : InstrFrame s u) : TickCase s now u.countCpu
  | raised {t : State} (hdue : CpuDue s now) (hf : InstrFrame s t) (ht : t.fault ≠ none) : TickCase s now t
  | timer (hdue : TimerDue s now) : TickCase s now s.timerTick.countTimer
  | returned (hc : now.toNat ≤ s.cpuDeadline) (ht : now.toNat ≤ s.timerDeadline) : TickCase s now (s.finish .ok)

theorem tickCase_of_step {s t : State} {now : Millis} (h : Advancing s now) (hs : step s = .next t) : TickCase s now t := by
  obtain ⟨hv, hadv, hnone⟩ := id h
  obtain ⟨-, hc⟩ := step_cases hs
  cases hc with
  | faultReturned _ _ _ hf => cases hnone.symm.trans hf
  | cpuReanchor _ ha _ hd hl =>
    exact absurd hl (cpuTicks_ne_lastTick hv (due_cpu.mp hd).1)
  | waiting _ _ ha _ hd =>
    cases hadv.symm.trans ha
    exact .counted ⟨h, due_cpu.mp hd⟩ (.refl s)
  | instrDone _ u ha _ hd _ _ hi =>
    cases hadv.symm.trans ha
    exact .counted ⟨h, due_cpu.mp hd⟩ (frame_of_instrCase hi)
  | instrFault _ _ _ ha _ hd _ _ hi hf =>
    cases hadv.symm.trans ha
    exact .raised ⟨h, due_cpu.mp hd⟩ (frame_of_instrCase hi) (hf ▸ Option.some_ne_none _)
  | timerReanchor _ ha _ hd hl => exact absurd hl (timerTicks_ne_lastTick (due_timer.mp hd).2)
  | timer _ ha _ hd =>
    cases hadv.symm.trans ha
    exact .timer ⟨h, due_timer.mp hd⟩
  | returned _ ha _ hd =>
    cases hadv.symm.trans ha
    obtain ⟨hc, ht⟩ := due_nothing.mp hd
    exact .returned hc ht
  | idle ha => cases hadv.symm.trans ha
  | command _ _ ha => cases hadv.symm.trans ha

/-- Settles O40: of the four things the loop can do, each counter is counted by one and the call is ended by one. -/
theorem ticksComeInDeadlineOrder : Obligations.TicksComeInDeadlineOrder := by
  unfold Obligations.TicksComeInDeadlineOrder
  intro s t now h hs
  obtain ⟨-, hadv, -⟩ := id h
  have hrunning : s.advancing ≠ none := hadv ▸ Option.some_ne_none now
  cases tickCase_of_step h hs with
  | counted hdue hf =>
    obtain ⟨-, hsel⟩ := hdue
    exact ⟨fun _ => hsel, fun hne => absurd hf.timerTicks hne, fun he => absurd (hf.advancing.symm.trans he) hrunning⟩
  | raised hdue hf =>
    exact ⟨fun hne => absurd hf.cpuTicks hne, fun hne => absurd hf.timerTicks hne,
      fun he => absurd (hf.advancing.symm.trans he) hrunning⟩
  | timer hdue =>
    obtain ⟨-, hnot, hlt⟩ := hdue
    exact ⟨fun hne => absurd rfl hne, fun _ => ⟨hlt, by omega⟩, fun he => absurd he hrunning⟩
  | returned hc ht => exact ⟨fun hne => absurd rfl hne, fun hne => absurd rfl hne, fun _ => ⟨hc, ht⟩⟩

/-! ### A tick that faults -/

/-- R262: counting leaves a state with a fault latched. -/
theorem eq_of_countIfDone_fault {o : Host.Outcome State Fault Refusal} {t : State} (h : countIfDone o = .next t)
    (hf : t.fault ≠ none) : o = .next t := by
  cases o with
  | next u =>
    rw [countIfDone_next] at h
    split at h
    · rename_i hu
      cases h
      exact absurd hu hf
    · exact h
  | fault r => cases h
  | refused r => cases h

/-- R311: what an instruction step that latches a fault records. -/
theorem faulted_of_instrCase {s t : State} (hs : s.fault = none) (h : InstrCase s t) (hf : t.fault ≠ none) :
    ∃ k op, t = faulted s k op ∧ op = s.fetch ∧ (op = none ↔ k = .fetchOutOfRange) := by
  cases h with
  | fetchFault hfetch => exact ⟨_, _, rfl, hfetch.symm, by simp⟩
  | unknown op _ hfetch => exact ⟨_, _, rfl, hfetch.symm, by simp⟩
  | run op i _ hfetch hd hx =>
    obtain ⟨k, hk, rfl⟩ | hsame := (exec_cases hx).fault
    · obtain ⟨-, henc⟩ := encode_of_decode hd
      exact ⟨k, _, rfl, by rw [hfetch, henc], by simp [hk]⟩
    · exact absurd (hsame.trans hs) hf

/-- Settles O43: the tick is the uncounted instruction step, which records the fetched word. -/
theorem faultingTickCommitsNothing : Obligations.FaultingTickCommitsNothing := by
  unfold Obligations.FaultingTickCommitsNothing
  intro s t now hdue hw hs hf
  obtain ⟨⟨-, -, hnone⟩, -⟩ := id hdue
  rw [step_of_cpuDue_of_not_waiting hdue hw] at hs
  exact faulted_of_instrCase hnone (instructionStep_cases (eq_of_countIfDone_fault hs hf)) hf

/-! ### The return -/

section Return

variable {s : State} {now : Millis}

/-- R262: the fault latched by the tick before is returned. -/
theorem step_of_latched {f : FaultRecord} (hv : s.cfg.valid = true) (ha : s.advancing = some now) (hf : s.fault = some f) :
    step s = .next (s.finish (.err (.executor f))) := by
  simp only [step, machineStep, if_pos hv, ha, advanceStep, hf]

/-- R263: nothing is due. -/
theorem step_of_nothing_due (h : Advancing s now) (hc : now.toNat ≤ s.cpuDeadline) (ht : now.toNat ≤ s.timerDeadline) :
    step s = .next (s.finish .ok) := by
  rw [step_advancing h, due_nothing.mpr ⟨hc, ht⟩]

end Return

/-- Settles O44: both returns finish the command and nothing else. -/
theorem advanceReturnsItsResult : Obligations.AdvanceReturnsItsResult := by
  unfold Obligations.AdvanceReturnsItsResult
  exact fun s now hv ha => ⟨fun f hf => step_of_latched hv ha hf,
    fun hf hc ht => step_of_nothing_due ⟨hv, ha, hf⟩ hc ht⟩

/-! ### Termination -/

/-- A bound on the steps a running `advance(now)` still takes: one to return a latched fault; else one a millisecond of each
clock, one for a tick that raises, and one to return. -/
def stepsLeft (s : State) (now : Millis) : Nat :=
  if s.fault = none then (now.toNat - s.cpuDeadline) + (now.toNat - s.timerDeadline) + 2 else 1

theorem stepsLeft_of_no_fault {s : State} {now : Millis} (h : s.fault = none) :
    stepsLeft s now = (now.toNat - s.cpuDeadline) + (now.toNat - s.timerDeadline) + 2 := if_pos h

theorem stepsLeft_of_fault {s : State} {now : Millis} (h : s.fault ≠ none) : stepsLeft s now = 1 := if_neg h

theorem stepsLeft_pos (s : State) (now : Millis) : 0 < stepsLeft s now := by
  unfold stepsLeft
  split <;> omega

theorem stepsLeft_le (s : State) (now : Millis) :
    stepsLeft s now ≤ (now.toNat - s.cpuDeadline) + (now.toNat - s.timerDeadline) + 2 := by
  unfold stepsLeft
  split <;> omega

/-- R265: a counted CPU tick moves the CPU's deadline on and leaves the timer's. -/
theorem deadlines_countCpu {s u : State} (hv : s.cfg.valid = true) (hf : InstrFrame s u) (hl : s.cpuTicks ≠ lastTick) :
    s.cpuDeadline + 1 ≤ u.countCpu.cpuDeadline ∧ u.countCpu.timerDeadline = s.timerDeadline := by
  obtain ⟨h1, h2⟩ := cpuHz_range hv
  have hgrow := deadlineOffset_succ s.cfg.deadlineMode s.cpuTicks.toNat h1 h2
  simp only [State.cpuDeadline, State.timerDeadline, countCpu_cfg, countCpu_epoch, countCpu_cpuTicks, countCpu_timerTicks,
    hf.cfg, hf.epoch, hf.cpuTicks, hf.timerTicks, toNat_add_one_of_ne_lastTick hl, and_true]
  omega

/-- R265: a timer tick moves the timer's deadline on and leaves the CPU's. -/
theorem deadlines_timerTick {s : State} (hl : s.timerTicks ≠ lastTick) :
    s.timerDeadline + 1 ≤ s.timerTick.countTimer.timerDeadline ∧ s.timerTick.countTimer.cpuDeadline = s.cpuDeadline := by
  have hgrow := deadlineOffset_succ s.cfg.deadlineMode s.timerTicks.toNat (hz := timerHz) (by decide) (by decide)
  refine ⟨?_, rfl⟩
  simp only [State.timerDeadline, countTimer_cfg, countTimer_epoch, countTimer_timerTicks, timerTick_cfg, timerTick_epoch,
    timerTick_timerTicks, toNat_add_one_of_ne_lastTick hl]
  omega

/-- R265: a step of a running `advance` ends it or leaves fewer steps. -/
theorem step_ends_or_decreases {s t : State} {now : Millis} (hv : s.cfg.valid = true) (ha : s.advancing = some now)
    (hs : step s = .next t) : t.advancing = none ∨ (t.advancing = some now ∧ stepsLeft t now < stepsLeft s now) := by
  cases hf : s.fault with
  | some f =>
    rw [step_of_latched hv ha hf] at hs
    cases hs
    exact .inl rfl
  | none =>
    have hleft := stepsLeft_of_no_fault (now := now) hf
    cases tickCase_of_step ⟨hv, ha, hf⟩ hs with
    | @counted u hdue hframe =>
      obtain ⟨-, hlt, -⟩ := hdue
      obtain ⟨hcpu, htimer⟩ := deadlines_countCpu hv hframe (cpuTicks_ne_lastTick hv hlt)
      have hle := stepsLeft_le u.countCpu now
      exact .inr ⟨hframe.advancing.trans ha, by omega⟩
    | raised hdue hframe ht =>
      have hone := stepsLeft_of_fault (now := now) ht
      exact .inr ⟨hframe.advancing.trans ha, by omega⟩
    | timer hdue =>
      obtain ⟨-, -, hlt⟩ := hdue
      obtain ⟨htimer, hcpu⟩ := deadlines_timerTick (timerTicks_ne_lastTick hlt)
      have hle := stepsLeft_le s.timerTick.countTimer now
      exact .inr ⟨ha, by omega⟩
    | returned => exact .inl rfl

/-- R265: a running `advance` ends within the bound on its steps. -/
theorem run_ends {now : Millis} (n : Nat) : ∀ s : State, stepsLeft s now ≤ n → s.cfg.valid = true → StackBounded s →
    s.advancing = some now → ∃ k t, k ≤ n ∧ Host.Core.run core k s = .next t ∧ t.advancing = none := by
  induction n with
  | zero => exact fun s hle => absurd (stepsLeft_pos s now) (by omega)
  | succ n ih =>
    intro s hle hv hb ha
    obtain ⟨t, ht⟩ := step_answers hv hb
    obtain ⟨hbt, hcfg⟩ := stackBounded_of_step hv hb ht
    obtain hend | ⟨hrun, hless⟩ := step_ends_or_decreases hv ha ht
    · exact ⟨1, t, by omega, run_succ 0 ht, hend⟩
    · obtain ⟨k, u, hk, hu, hend⟩ := ih t (by omega) (hcfg ▸ hv) hbt hrun
      exact ⟨k + 1, u, by omega, (run_succ k ht).trans hu, hend⟩

/-- Settles O46: every step that does not end the call leaves fewer of the steps `stepsLeft` bounds. -/
theorem advanceTerminates : Obligations.AdvanceTerminates := by
  unfold Obligations.AdvanceTerminates
  exact fun s now hv hb ha => run_ends _ s (stepsLeft_le s now) hv hb ha

end Sys2Proof.Machine.Proofs
end

section
/-!
PROOFS of the family other, 45_scheduler and 46_host_interface: the beginning of an `advance`, and what every step keeps of the
clocks, the latch and the host's settings.
-/

namespace Sys2Proof.Machine.Proofs

open Sys2Proof.Machine.Laws

/-! ### The beginning of an `advance` (R254, R256) -/

theorem skew_of_lt {s : State} {now : Millis} (h : now.toNat < s.epoch.toNat) : s.skew now = s.reanchor now := if_pos h

theorem skew_of_le {s : State} {now : Millis} (h : s.epoch.toNat ≤ now.toNat) : s.skew now = s := if_neg (Nat.not_lt.mpr h)

theorem resolveWait_of_not_waiting {s : State} (h : s.wait = none) : s.resolveWait = s := by
  rw [State.resolveWait, h]

theorem lowestKey_zero : lowestKey 0#16 = none := by decide

/-- R256: with no key awaited or none pressed nothing is resolved. -/
theorem resolveWait_of_idle {s : State} (h : s.wait = none ∨ s.keys = 0#16) : s.resolveWait = s := by
  obtain h | h := h
  · exact resolveWait_of_not_waiting h
  · cases hw : s.wait with
    | none => exact resolveWait_of_not_waiting hw
    | some r => simp only [State.resolveWait, hw, h, lowestKey_zero]

/-- R256: a pressed key resolves the wait with the least one. -/
theorem resolveWait_of_pressed {s : State} {r : RegNum} (hw : s.wait = some r) (hk : s.keys ≠ 0#16) :
    ∃ k, k < 16 ∧ s.keys.getLsbD k = true ∧ (∀ j, j < k → s.keys.getLsbD j = false) ∧
      s.resolveWait = { s.setReg r (u8 k) with wait := none } := by
  cases hl : lowestKey s.keys with
  | none => exact absurd (lowestKey_none hl) hk
  | some k =>
    obtain ⟨hlt, hdown, hleast⟩ := lowestKey_some hl
    exact ⟨k, hlt, hdown, hleast, by simp only [State.resolveWait, hw, hl]⟩

theorem resolveWait_epoch (s : State) : s.resolveWait.epoch = s.epoch := by rw [resolveWait_eq]

theorem resolveWait_cpuTicks (s : State) : s.resolveWait.cpuTicks = s.cpuTicks := by rw [resolveWait_eq]

theorem resolveWait_timerTicks (s : State) : s.resolveWait.timerTicks = s.timerTicks := by rw [resolveWait_eq]

theorem skew_v (s : State) (now : Millis) : (s.skew now).v = s.v := by rw [skew_eq]

theorem skew_reg (s : State) (now : Millis) (k : RegNum) : (s.skew now).reg k = s.reg k := by
  rw [skew_eq]
  rfl

theorem skew_wait (s : State) (now : Millis) : (s.skew now).wait = s.wait := by rw [skew_eq]

theorem skew_keys (s : State) (now : Millis) : (s.skew now).keys = s.keys := by rw [skew_eq]

/-- R254, R256: the corrections before the tick loop write `V`, `WAIT` and the clocks only. -/
theorem begun_eq (s : State) (now : Millis) : ∃ v w e c k,
    (s.skew now).resolveWait = { s with v := v, wait := w, epoch := e, cpuTicks := c, timerTicks := k } := by
  obtain ⟨e, c, k, hskew⟩ : ∃ e c k, s.skew now = { s with epoch := e, cpuTicks := c, timerTicks := k } :=
    ⟨_, _, _, skew_eq s now⟩
  rw [resolveWait_eq, hskew]
  exact ⟨_, _, _, _, _, rfl⟩

/-- Settles O37: `skew` corrects the clocks and `resolveWait` the wait, which it finds as before. -/
theorem advanceBeginsWithSkewAndKeyWait : Obligations.AdvanceBeginsWithSkewAndKeyWait := by
  unfold Obligations.AdvanceBeginsWithSkewAndKeyWait
  intro s now rest h hs hf
  refine ⟨_, step_advanceBegins h hs hf, rfl, ?pending, rfl, fun hlt => ?skewed, fun hle => ?inTime, fun hidle => ?idle,
    fun r hw hk => ?resolved, ?frame, fun a => ?bytes⟩
  case skewed =>
    have hskew := skew_of_lt (s := { s with pending := rest }) hlt
    exact ⟨by rw [resolveWait_epoch, hskew, reanchor_epoch], by rw [resolveWait_cpuTicks, hskew, reanchor_cpuTicks],
      by rw [resolveWait_timerTicks, hskew, reanchor_timerTicks]⟩
  case inTime =>
    have hskew := skew_of_le (s := { s with pending := rest }) hle
    exact ⟨by rw [resolveWait_epoch, hskew], by rw [resolveWait_cpuTicks, hskew], by rw [resolveWait_timerTicks, hskew]⟩
  case idle =>
    have hres : (State.skew { s with pending := rest } now).resolveWait = State.skew { s with pending := rest } now :=
      resolveWait_of_idle (by rwa [skew_wait, skew_keys])
    simp only [hres]
    exact ⟨skew_wait _ now, skew_v _ now⟩
  case resolved =>
    obtain ⟨k, hlt, hdown, hleast, hres⟩ :=
      resolveWait_of_pressed (s := State.skew { s with pending := rest } now) (r := r) (by rwa [skew_wait]) (by rwa [skew_keys])
    rw [skew_keys] at hdown hleast
    rw [hres]
    refine ⟨rfl, k, hlt, hdown, hleast, ?_, fun q hq => ?_⟩
    · have hreg := congrArg BitVec.toNat (reg_setReg_same (State.skew { s with pending := rest } now) r (u8 k))
      rw [toNat_u8, Nat.mod_eq_of_lt (by omega)] at hreg
      exact hreg
    · exact (reg_setReg_other _ _ hq).trans (skew_reg _ now q)
  all_goals obtain ⟨v, w, e, c, k, hbegun⟩ := begun_eq { s with pending := rest } now
  case pending => rw [hbegun]
  case frame => rw [hbegun]
  case bytes => rw [hbegun]

/-- Settles O39: with nothing to correct the call begins as it is, and with nothing due it returns. -/
theorem secondAdvanceDoesNothing : Obligations.SecondAdvanceDoesNothing := by
  unfold Obligations.SecondAdvanceDoesNothing
  intro s now rest h hs hf hw hle hc ht
  have hbegin := step_advanceBegins h hs hf
  have hskew := skew_of_le (s := { s with pending := rest }) hle
  have hres := resolveWait_of_not_waiting (s := { s with pending := rest }) hw
  rw [hskew, hres] at hbegin
  obtain ⟨hv, hidle, -⟩ := h
  have hreturn := step_of_nothing_due (s := { s with pending := rest, advancing := some now, reply := none })
    ⟨hv, rfl, hf⟩ hc ht
  exact ⟨_, hbegin, hreturn.trans (by rw [State.finish, hidle])⟩

/-- R254: clocks anchored at `now_ms` have nothing due. -/
theorem step_of_anchored {s : State} {now : Millis} (h : Advancing s now) (he : s.epoch = now) (hc : s.cpuTicks = 0#64)
    (ht : s.timerTicks = 0#64) : step s = .next (s.finish .ok) := by
  obtain ⟨hcpu, htimer⟩ := deadlines_of_anchored hc ht
  exact step_of_nothing_due h (by rw [hcpu, he]) (by rw [htimer, he])

/-- Settles O38: the clocks are anchored at `now_ms`, so nothing is due. -/
theorem skewedAdvancePerformsNoTick : Obligations.SkewedAdvancePerformsNoTick := by
  unfold Obligations.SkewedAdvancePerformsNoTick
  intro s now rest h hs hf hlt
  have hbegin := step_advanceBegins h hs hf
  have hskew := skew_of_lt (s := { s with pending := rest }) hlt
  obtain ⟨v, w, hres⟩ : ∃ v w, (State.reanchor { s with pending := rest } now).resolveWait =
      { State.reanchor { s with pending := rest } now with v := v, wait := w } := ⟨_, _, resolveWait_eq _⟩
  rw [hskew, hres] at hbegin
  obtain ⟨hv, hidle, -⟩ := h
  refine ⟨_, _, hbegin, step_of_anchored ⟨hv, rfl, hf⟩ rfl rfl rfl, ?_, fun hnone => ?_⟩
  · rw [State.finish, hidle]
    rfl
  · have hsame := hres.symm.trans (resolveWait_of_idle (s := State.reanchor { s with pending := rest } now) hnone)
    have hregs := congrArg State.v hsame
    have hwait := congrArg State.wait hsame
    exact ⟨hregs, hwait⟩

/-! ### The clocks (R265) -/

theorem countersBounded_of_clocks {s t : State} (h : CountersBounded s) (he : t.epoch = s.epoch) (hc : t.cpuTicks = s.cpuTicks)
    (hk : t.timerTicks = s.timerTicks) : CountersBounded t := by
  rwa [CountersBounded, he, hc, hk]

theorem countersBounded_of_anchored {s : State} (hc : s.cpuTicks = 0#64) (hk : s.timerTicks = 0#64) : CountersBounded s := by
  have hlt := s.epoch.isLt
  simp only [CountersBounded, hc, hk, BitVec.toNat_ofNat]
  omega

/-- R265: a counted CPU tick was due before `now_ms`. -/
theorem countersBounded_countCpu {s u : State} {now : Millis} (hv : s.cfg.valid = true) (h : CountersBounded s)
    (hf : InstrFrame s u) (hdue : s.cpuDeadline < now.toNat) : CountersBounded u.countCpu := by
  obtain ⟨-, htimer⟩ := h
  have hcpu := epoch_add_cpuTicks_le hv
  have hlt := now.isLt
  simp only [CountersBounded, countCpu_epoch, countCpu_cpuTicks, countCpu_timerTicks, hf.epoch, hf.cpuTicks, hf.timerTicks,
    toNat_add_one_of_ne_lastTick (cpuTicks_ne_lastTick hv hdue)]
  omega

/-- R265: a timer tick was due before `now_ms`. -/
theorem countersBounded_timerTick {s : State} {now : Millis} (h : CountersBounded s) (hdue : s.timerDeadline < now.toNat) :
    CountersBounded s.timerTick.countTimer := by
  obtain ⟨hcpu, -⟩ := h
  have htimer := epoch_add_timerTicks_le s
  have hlt := now.isLt
  simp only [CountersBounded, countTimer_epoch, countTimer_cpuTicks, countTimer_timerTicks, timerTick_epoch,
    timerTick_cpuTicks, timerTick_timerTicks, toNat_add_one_of_ne_lastTick (timerTicks_ne_lastTick hdue)]
  omega

/-- R254: the skew correction anchors the clocks or leaves them. -/
theorem countersBounded_skew {s : State} (now : Millis) (h : CountersBounded s) : CountersBounded (s.skew now) := by
  obtain hlt | hle := Nat.lt_or_ge now.toNat s.epoch.toNat
  · rw [skew_of_lt hlt]
    exact countersBounded_of_anchored rfl rfl
  · rwa [skew_of_le hle]

theorem countersBounded_of_command {s t : State} {c : Command} (h : CountersBounded s) (hc : CommandCase s c t) :
    CountersBounded t := by
  cases hc with
  | alloc | started => exact countersBounded_of_anchored rfl rfl
  | began now =>
    exact countersBounded_of_clocks (countersBounded_skew now h) (resolveWait_epoch _) (resolveWait_cpuTicks _)
      (resolveWait_timerTicks _)
  | wroteByte | setKeys | answered => exact countersBounded_of_clocks h rfl rfl rfl

/-- Settles O47: a counted tick was due before `now_ms`, which is a 32-bit number; everything else leaves the clocks or anchors
them. -/
theorem countersStayBounded : Obligations.CountersStayBounded := by
  unfold Obligations.CountersStayBounded
  intro s t hb h
  obtain ⟨hv, hc⟩ := step_cases h
  cases hc with
  | cpuReanchor | timerReanchor => exact countersBounded_of_anchored rfl rfl
  | waiting _ _ _ _ hd => exact countersBounded_countCpu hv hb (.refl s) (due_cpu.mp hd).1
  | instrDone _ _ _ _ hd _ _ hi => exact countersBounded_countCpu hv hb (frame_of_instrCase hi) (due_cpu.mp hd).1
  | instrFault _ _ _ _ _ _ _ _ hi =>
    have hf := frame_of_instrCase hi
    exact countersBounded_of_clocks hb hf.epoch hf.cpuTicks hf.timerTicks
  | timer _ _ _ hd => exact countersBounded_timerTick hb (due_timer.mp hd).2
  | command c rest => exact countersBounded_of_command (s := { s with pending := rest }) hb (perform_cases _ c)
  | faultReturned | returned | idle => exact countersBounded_of_clocks hb rfl rfl rfl

/-! ### The host's settings, the latch and `STARTED` -/

/-- Settles O53: neither the tick loop nor an instruction writes them. -/
theorem advanceIsNotInterrupted : Obligations.AdvanceIsNotInterrupted := by
  unfold Obligations.AdvanceIsNotInterrupted
  intro s t now ha h
  obtain ⟨-, hc⟩ := step_cases h
  cases hc with
  | instrDone _ _ _ _ _ _ _ hi | instrFault _ _ _ _ _ _ _ _ hi =>
    have hf := frame_of_instrCase hi
    exact ⟨hf.pending, hf.keys, hf.res, hf.started, hf.cfg⟩
  | idle hnone | command _ _ hnone => cases ha.symm.trans hnone
  | _ => exact ⟨rfl, rfl, rfl, rfl, rfl⟩

/-- R315: with a fault latched, a command leaves the latch, or is `alloc` or `start`. -/
theorem fault_of_command {s t : State} {c : Command} {f : FaultRecord} (hf : s.fault = some f) (h : CommandCase s c t) :
    t.fault = some f ∨ c = .alloc ∨ ∃ now, c = .start now := by
  cases h with
  | alloc => exact .inr (.inl rfl)
  | started now => exact .inr (.inr ⟨now, rfl⟩)
  | began _ _ hnone => cases hf.symm.trans hnone
  | wroteByte | setKeys | answered => exact .inl hf

/-- Settles O54: with a fault latched the loop only returns it, and of the commands `alloc` and `start` alone write the latch. -/
theorem onlyStartClearsAFault : Obligations.OnlyStartClearsAFault := by
  unfold Obligations.OnlyStartClearsAFault
  intro s t f hf h
  obtain ⟨-, hc⟩ := step_cases h
  cases hc with
  | faultReturned | idle => exact .inl hf
  | command c rest ha hp =>
    obtain hkept | rfl | ⟨now, rfl⟩ := fault_of_command (s := { s with pending := rest }) hf (perform_cases _ c)
    · exact .inl hkept
    · exact .inr ⟨ha, rest, .inl hp⟩
    · exact .inr ⟨ha, rest, .inr ⟨now, hp⟩⟩
  | cpuReanchor _ _ hnone | waiting _ _ _ hnone | instrDone _ _ _ hnone | instrFault _ _ _ _ hnone | timerReanchor _ _ hnone
  | timer _ _ hnone | returned _ _ hnone => cases hf.symm.trans hnone

theorem runStarted_of_started {s : State} (h : s.started = true) : RunStarted s := ⟨fun _ => h, fun _ => h⟩

/-- R35, R250: a command that ends at once begins no run. -/
theorem runStarted_of_command {s t : State} {c : Command} (hr : RunStarted s) (h : CommandCase s c t) : RunStarted t := by
  obtain ⟨-, hfault⟩ := hr
  cases h with
  | alloc => exact ⟨fun hne => absurd rfl hne, fun hne => absurd rfl hne⟩
  | started => exact runStarted_of_started rfl
  | began now hs =>
    obtain ⟨v, w, e, k, l, hbegun⟩ := begun_eq s now
    rw [hbegun]
    exact runStarted_of_started hs
  | wroteByte | setKeys | answered => exact ⟨fun hne => absurd rfl hne, hfault⟩

/-- Settles O59: the loop runs in a started machine and keeps `STARTED`; an `advance` begins only when started. -/
theorem runsOnlyAfterStart : Obligations.RunsOnlyAfterStart := by
  unfold Obligations.RunsOnlyAfterStart
  intro s t hr h
  obtain ⟨hrun, hfault⟩ := id hr
  have hstarted : ∀ {now : Millis}, s.advancing = some now → s.started = true := fun ha => hrun (ha ▸ Option.some_ne_none _)
  obtain ⟨-, hc⟩ := step_cases h
  cases hc with
  | faultReturned _ _ ha | cpuReanchor _ ha | waiting _ _ ha | timerReanchor _ ha | timer _ ha | returned _ ha =>
    exact runStarted_of_started (hstarted ha)
  | instrDone _ _ ha _ _ _ _ hi | instrFault _ _ _ ha _ _ _ _ hi =>
    exact runStarted_of_started ((frame_of_instrCase hi).started.trans (hstarted ha))
  | idle => exact hr
  | command c rest => exact runStarted_of_command (s := { s with pending := rest }) hr (perform_cases _ c)

end Sys2Proof.Machine.Proofs
end

section
/-!
PROOFS of the family other, 43_display: the pixels a sprite lands on, and drawing it once and twice.
-/

namespace Sys2Proof.Machine.Proofs

open Sys2Proof.Machine.Laws

theorem wordOf_drw (x y : RegNum) {n : BitVec 4} (hn : n ≠ 0#4) :
    WordOf (0xD000 + x.toNat * 256 + y.toNat * 16 + n.toNat) (.drw x y n) :=
  wordOf_intro (toNat_txyn 0xD#4 x y n) (decode_encode (bne_iff_ne.mpr hn))

theorem wordOf_drw16 (x y : RegNum) : WordOf (0xD000 + x.toNat * 256 + y.toNat * 16) (.drw16 x y) :=
  wordOf_intro (toNat_txyn 0xD#4 x y 0x0#4) (decode_encode rfl)

theorem exec_drw16 (x y : RegNum) (s : State) :
    exec (.drw16 x y) s =
      s.guarded 31 (encode (.drw16 x y))
        (s.fetched.draw (spritePixels s.res (s.reg x).toNat (s.reg y).toNat 16 0 s.largeSpriteRows)) := rfl

/-! ### Where a sprite lands (R210, R211) -/

/-- A sprite whose rows hold the given bits, most significant first, lands on the pixels of its list. -/
theorem lands_iff_mem_spritePixels {res : Resolution} {px py w h : Nat} {rows : List (BitVec w)} {bit : Nat → Nat → Bool}
    (hlen : rows.length = h) (hbit : ∀ c r, ∀ hr : r < rows.length, c < w → rows[r].getLsbD (w - 1 - c) = bit c r)
    (X Y : Nat) : Lands res px py w h bit X Y ↔ (X, Y) ∈ spritePixels res px py w 0 rows := by
  subst hlen
  rw [mem_spritePixels]
  constructor
  · rintro ⟨c, r, hc, hr, hset, hX, hY⟩
    exact ⟨c, r, hr, hc, (hbit c r hr hc).trans hset, hX, by rw [hY, Nat.zero_add]⟩
  · rintro ⟨c, r, hr, hc, hset, hX, hY⟩
    exact ⟨c, r, hc, hr, (hbit c r hr hc).symm.trans hset, hX, by rw [hY, Nat.zero_add]⟩

/-- R211, R212: the draw of a list of stored pixels without repeats. -/
theorem draws_draw (s : State) {ps : List (Nat × Nat)} {lands : Nat → Nat → Prop} (hp : ∀ p ∈ ps, p.1 < 128 ∧ p.2 < 64)
    (hn : ps.Nodup) (hlands : ∀ X Y, lands X Y ↔ (X, Y) ∈ ps) : Draws s (s.fetched.draw ps) lands := by
  have hpixel : ∀ X Y, Screen.pixel (s.fetched.draw ps).screen X Y = (Screen.pixel s.screen X Y ^^ decide ((X, Y) ∈ ps)) :=
    pixel_flipAll hp hn s.screen
  have hcollides : collides s.screen ps = true ↔ ∃ X Y, lands X Y ∧ Screen.pixel s.screen X Y = true := by
    simp only [collides_iff, hlands]
  have hflag : ((s.fetched.draw ps).reg 15#4).toNat = if collides s.screen ps then 1 else 0 := by
    rw [reg_draw, if_pos rfl, toNat_flagByte, fetched_screen]
  refine ⟨fun X Y h => ?_, fun X Y h => ?_, fun h => ?_, fun h => ?_, fun k hk => ?_, rfl, rfl, fun _ => rfl⟩
  · rw [hpixel, decide_eq_true ((hlands X Y).mp h), Bool.xor_true]
  · rw [hpixel, decide_eq_false ((hlands X Y).not.mp h), Bool.xor_false]
  · rw [hflag, if_pos (hcollides.mpr h)]
  · rw [hflag, if_neg (hcollides.not.mpr h)]
  · rw [reg_draw, if_neg hk, fetched_reg]

theorem length_spriteRows (s : State) (n : Nat) : (s.spriteRows n).length = n := by simp [State.spriteRows]

theorem getElem_spriteRows (s : State) (n r : Nat) (h : r < (s.spriteRows n).length) :
    (s.spriteRows n)[r] = Memory.read s.mem (s.access r) := by
  simp [State.spriteRows, State.dataByte]

theorem length_largeSpriteRows (s : State) : s.largeSpriteRows.length = 16 := by simp [State.largeSpriteRows]

theorem getElem_largeSpriteRows (s : State) (r : Nat) (h : r < s.largeSpriteRows.length) :
    s.largeSpriteRows[r] =
      wordOfBytes (Memory.read s.mem (s.access (2 * r))) (Memory.read s.mem (s.access (2 * r + 1))) := by
  simp [State.largeSpriteRows, State.dataByte]

/-- R210: the left 8 columns of a 16-bit row are its high byte, the right 8 its low byte. -/
theorem getLsbD_wordOfBytes (hi lo : Byte) {c : Nat} (hc : c < 16) :
    (wordOfBytes hi lo).getLsbD (15 - c) = if c < 8 then hi.getLsbD (7 - c) else lo.getLsbD (15 - c) := by
  rw [wordOfBytes, BitVec.getLsbD_append]
  by_cases h : c < 8
  · rw [if_neg (by omega), if_pos h, show 15 - c - 8 = 7 - c by omega]
  · rw [if_pos (by omega), if_neg h]

/-- R211: the pixels of a sprite of at most 15 rows of 8 columns are different ones. -/
theorem nodup_spriteRows (s : State) (px py : Nat) (n : BitVec 4) :
    (spritePixels s.res px py 8 0 (s.spriteRows n.toNat)).Nodup :=
  nodup_spritePixels (by decide) (by rw [length_spriteRows]; omega)

/-- Settles O27: the rows are the bytes at the checked offsets, and the list of pixels has no repeats. -/
theorem spriteIsDrawn : Obligations.SpriteIsDrawn := by
  unfold Obligations.SpriteIsDrawn
  refine fun x y n s hn => ⟨wordOf_drw x y hn, fun hr => ?_, fun hr => ?_⟩
  · refine ⟨_, (exec_drw hn).trans (guarded_pass hr),
      draws_draw s (fun p hp => spritePixels_stored hp) (nodup_spriteRows s _ _ n)
        (lands_iff_mem_spritePixels (length_spriteRows s n.toNat) fun c r h _ => ?_)⟩
    rw [getElem_spriteRows]
  · rw [exec_drw hn, guarded_fault hr, (wordOf_drw x y hn).1]

/-- Settles O28: the rows are the pairs of bytes at the checked offsets, and the list of pixels has no repeats. -/
theorem largeSpriteIsDrawn : Obligations.LargeSpriteIsDrawn := by
  unfold Obligations.LargeSpriteIsDrawn
  refine fun x y s => ⟨wordOf_drw16 x y, fun hr => ?_, fun hr => ?_⟩
  · refine ⟨_, (exec_drw16 x y s).trans (guarded_pass hr),
      draws_draw s (fun p hp => spritePixels_stored hp)
        (nodup_spritePixels (by decide) (by rw [length_largeSpriteRows]; decide))
        (lands_iff_mem_spritePixels (length_largeSpriteRows s) fun c r h hc => ?_)⟩
    rw [getElem_largeSpriteRows, getLsbD_wordOfBytes _ _ hc]
  · rw [exec_drw16, guarded_fault hr, (wordOf_drw16 x y).1]

/-! ### Drawing twice -/

/-- R211: two flips of the same pixels restore the screen. -/
theorem flipAll_flipAll {ps : List (Nat × Nat)} (hp : ∀ p ∈ ps, p.1 < 128 ∧ p.2 < 64) (hn : ps.Nodup) (scr : Screen) :
    Screen.flipAll (Screen.flipAll scr ps) ps = scr := by
  apply screen_ext
  intro X Y
  rw [pixel_flipAll hp hn, pixel_flipAll hp hn, Bool.xor_assoc, Bool.xor_self, Bool.xor_false]

/-- R212: after a draw without collision the pixels it set collide with the same draw. -/
theorem collides_flipAll {ps : List (Nat × Nat)} (hp : ∀ p ∈ ps, p.1 < 128 ∧ p.2 < 64) (hn : ps.Nodup) {scr : Screen}
    (hfree : ¬ collides scr ps = true) (hne : ∃ q, q ∈ ps) : collides (Screen.flipAll scr ps) ps = true := by
  obtain ⟨⟨X, Y⟩, hq⟩ := hne
  have hoff : Screen.pixel scr X Y = false :=
    Bool.eq_false_of_not_eq_true fun hon => hfree (collides_iff.mpr ⟨X, Y, hq, hon⟩)
  exact collides_iff.mpr ⟨X, Y, hq, by rw [pixel_flipAll hp hn, hoff, decide_eq_true hq, Bool.false_xor]⟩

/-- A byte that is not 0 has a set bit. -/
theorem exists_column_of_ne_zero {b : Byte} (h : b ≠ 0#8) : ∃ c, c < 8 ∧ b.getLsbD (8 - 1 - c) = true := by
  by_contra hnone
  refine h (BitVec.eq_of_getLsbD_eq fun j hj => ?_)
  have hoff : b.getLsbD j = false := Bool.eq_false_of_not_eq_true fun hon =>
    hnone ⟨7 - j, by omega, by rwa [show 8 - 1 - (7 - j) = j by omega]⟩
  rw [hoff, BitVec.getLsbD_zero]

/-- R210: a sprite with a row that is not 0 lands somewhere. -/
theorem exists_mem_spritePixels {s : State} (px py : Nat) {n : Nat}
    (h : ∃ r, r < n ∧ Memory.read s.mem (s.access r) ≠ 0#8) : ∃ q, q ∈ spritePixels s.res px py 8 0 (s.spriteRows n) := by
  obtain ⟨r, hr, hrow⟩ := h
  obtain ⟨c, hc, hset⟩ := exists_column_of_ne_zero hrow
  have hr' : r < (s.spriteRows n).length := by rwa [length_spriteRows]
  exact ⟨_, mem_spritePixels.mpr ⟨c, r, hr', hc, by rwa [getElem_spriteRows], rfl, rfl⟩⟩

/-- R214: a draw changes nothing that a second draw at coordinates other than `VF` reads, but the screen. -/
theorem exec_drw_again {x y : RegNum} {n : BitVec 4} {s : State} {ps : List (Nat × Nat)} (hn : n ≠ 0#4) (hx : x ≠ 15#4)
    (hy : y ≠ 15#4) (hr : DataInRange s (n.toNat - 1))
    (hps : ps = spritePixels s.res (s.reg x).toNat (s.reg y).toNat 8 0 (s.spriteRows n.toNat)) :
    exec (.drw x y n) (s.fetched.draw ps) = .next ((s.fetched.draw ps).fetched.draw ps) := by
  have hregx : (s.fetched.draw ps).reg x = s.reg x := (reg_draw _ _ _).trans (if_neg hx)
  have hregy : (s.fetched.draw ps).reg y = s.reg y := (reg_draw _ _ _).trans (if_neg hy)
  have hrows : (s.fetched.draw ps).spriteRows n.toNat = s.spriteRows n.toNat := rfl
  rw [exec_drw hn, guarded_pass (s := s.fetched.draw ps) hr, hregx, hregy, hrows, draw_res, fetched_res, ← hps]

/-- Settles O29: the second draw flips the same pixels, which the first one set if none was set before. -/
theorem drawingTwiceErases : Obligations.DrawingTwiceErases := by
  unfold Obligations.DrawingTwiceErases
  intro x y n s hn hx hy hr
  obtain ⟨ps, hps⟩ : ∃ ps, ps = spritePixels s.res (s.reg x).toNat (s.reg y).toNat 8 0 (s.spriteRows n.toNat) := ⟨_, rfl⟩
  have hstored : ∀ p ∈ ps, p.1 < 128 ∧ p.2 < 64 := fun p hp => spritePixels_stored (hps ▸ hp)
  have hnodup : ps.Nodup := hps ▸ nodup_spriteRows s _ _ n
  have hfirst : exec (.drw x y n) s = .next (s.fetched.draw ps) := by rw [exec_drw hn, guarded_pass hr, hps]
  refine ⟨_, _, hfirst, exec_drw_again hn hx hy hr hps, flipAll_flipAll hstored hnodup s.screen, fun hzero hrow => ?_⟩
  have hfree : ¬ collides s.screen ps = true := by
    intro hc
    rw [reg_draw, if_pos rfl, toNat_flagByte, fetched_screen, if_pos hc] at hzero
    cases hzero
  have hagain := collides_flipAll hstored hnodup hfree (hps ▸ exists_mem_spritePixels _ _ hrow)
  rw [reg_draw, if_pos rfl, toNat_flagByte, fetched_screen, draw_screen, fetched_screen, if_pos hagain]

end Sys2Proof.Machine.Proofs
end

section
/-!
PROOFS of the family other, 20_memory, 40_control_flow, 41_alu, 42_index_memory and 70_reset_and_hazards: single instructions, and
the power-on state.
-/

namespace Sys2Proof.Machine.Proofs

open Sys2Proof.Machine.Laws

/-! ### 41_alu -/

theorem wordOf_orReg (x y : RegNum) : WordOf (0x8001 + x.toNat * 256 + y.toNat * 16) (.orReg x y) :=
  wordOf_intro (toNat_aluWord x y 0x1#4) (decode_encode rfl)

theorem wordOf_andReg (x y : RegNum) : WordOf (0x8002 + x.toNat * 256 + y.toNat * 16) (.andReg x y) :=
  wordOf_intro (toNat_aluWord x y 0x2#4) (decode_encode rfl)

theorem wordOf_xorReg (x y : RegNum) : WordOf (0x8003 + x.toNat * 256 + y.toNat * 16) (.xorReg x y) :=
  wordOf_intro (toNat_aluWord x y 0x3#4) (decode_encode rfl)

theorem wordOf_shr (x y : RegNum) : WordOf (0x8006 + x.toNat * 256 + y.toNat * 16) (.shr x y) :=
  wordOf_intro (toNat_aluWord x y 0x6#4) (decode_encode rfl)

theorem wordOf_shl (x y : RegNum) : WordOf (0x800E + x.toNat * 256 + y.toNat * 16) (.shl x y) :=
  wordOf_intro (toNat_aluWord x y 0xE#4) (decode_encode rfl)

theorem wordOf_rnd (x : RegNum) (kk : Byte) : WordOf (0xC000 + x.toNat * 256 + kk.toNat) (.rnd x kk) :=
  wordOf_intro (toNat_txk 0xC#4 x kk) (decode_encode rfl)

theorem exec_orReg (x y : RegNum) (s : State) :
    exec (.orReg x y) s = .next (s.fetched.setReg x (s.reg x ||| s.reg y)) := rfl

theorem exec_andReg (x y : RegNum) (s : State) :
    exec (.andReg x y) s = .next (s.fetched.setReg x (s.reg x &&& s.reg y)) := rfl

theorem exec_xorReg (x y : RegNum) (s : State) :
    exec (.xorReg x y) s = .next (s.fetched.setReg x (s.reg x ^^^ s.reg y)) := rfl

theorem exec_shr (x y : RegNum) (s : State) :
    exec (.shr x y) s = .next (s.fetched.writeFlagged x (shrFlagged (s.reg x))) := rfl

theorem exec_shl (x y : RegNum) (s : State) :
    exec (.shl x y) s = .next (s.fetched.writeFlagged x (shlFlagged (s.reg x))) := rfl

theorem exec_rnd (x : RegNum) (kk : Byte) (s : State) :
    exec (.rnd x kk) s =
      .next { s.fetched.setReg x (Config.randomByte s.draws &&& kk) with draws := s.draws + 1 } := rfl

/-- Settles O16: each is a write of one register, and the bitwise operations commute with reading a byte as a number. -/
theorem logicWritesOneRegister : Obligations.LogicWritesOneRegister := by
  unfold Obligations.LogicWritesOneRegister
  refine fun x y s => ⟨⟨wordOf_orReg x y, _, exec_orReg x y s, ?_⟩, ⟨wordOf_andReg x y, _, exec_andReg x y s, ?_⟩,
    wordOf_xorReg x y, _, exec_xorReg x y s, ?_⟩
  · rw [← BitVec.toNat_or]
    exact writesReg_setReg s x _
  · rw [← BitVec.toNat_and]
    exact writesReg_setReg s x _
  · rw [← BitVec.toNat_xor]
    exact writesReg_setReg s x _

/-- R160: the result and the flag of SHR as numbers. -/
theorem toNat_shrFlagged (a : Byte) :
    (shrFlagged a).1.toNat = a.toNat / 2 ∧ (flagByte (shrFlagged a).2).toNat = a.toNat % 2 := by
  refine ⟨?_, ?_⟩
  · rw [shrFlagged, toNat_u8]
    omega
  · obtain h | h := Nat.mod_two_eq_zero_or_one a.toNat <;> simp [shrFlagged, h]

/-- R162: the result and the flag of SHL as numbers. -/
theorem toNat_shlFlagged (a : Byte) :
    (shlFlagged a).1.toNat = a.toNat * 2 % 256 ∧ (flagByte (shlFlagged a).2).toNat = a.toNat / 128 := by
  have hbit : a.toNat / 128 = 0 ∨ a.toNat / 128 = 1 := by omega
  refine ⟨toNat_u8 _, ?_⟩
  obtain h | h := hbit <;> simp [shlFlagged, h]

/-- Settles O19: both are flagged writes whose operands do not name y. -/
theorem shiftsSetTheFlag : Obligations.ShiftsSetTheFlag := by
  unfold Obligations.ShiftsSetTheFlag
  intro x y s
  obtain ⟨hshr, hshrFlag⟩ := toNat_shrFlagged (s.reg x)
  obtain ⟨hshl, hshlFlag⟩ := toNat_shlFlagged (s.reg x)
  refine ⟨⟨wordOf_shr x y, _, exec_shr x y s, ?_⟩, wordOf_shl x y, _, exec_shl x y s, ?_⟩
  · rw [← hshr, ← hshrFlag]
    exact writesFlagged_writeFlagged s x _
  · rw [← hshl, ← hshlFlag]
    exact writesFlagged_writeFlagged s x _

/-- Settles O20: a write of one register with the draw, whatever it is, and the count moves on. -/
theorem randomByteIsMasked : Obligations.RandomByteIsMasked := by
  unfold Obligations.RandomByteIsMasked
  intro x kk s
  obtain ⟨hreg, hother, -, -, -⟩ := writesReg_setReg s x (Config.randomByte s.draws &&& kk)
  exact ⟨wordOf_rnd x kk, _, exec_rnd x kk s, hreg.trans (BitVec.toNat_and _ _), hother, rfl, rfl, rfl, fun _ => rfl⟩

/-! ### 42_index_memory -/

/-- Settles O21: the address is the definition's under each policy, and `access_lt` bounds it. -/
theorem dataAddressesComeFromTheIndex : Obligations.DataAddressesComeFromTheIndex := by
  unfold Obligations.DataAddressesComeFromTheIndex
  exact fun s k kmax => ⟨fun h => by rw [State.access, h], fun h => by rw [State.access, h]; rfl, access_lt⟩

/-! ### 20_memory -/

/-- Settles O8: of the registers stored (`registersAreStored`), `V0` and `V1` stand where the fetch at the moved `PC` reads. -/
theorem storesAreSeenByTheNextFetch : Obligations.StoresAreSeenByTheNextFetch := by
  unfold Obligations.StoresAreSeenByTheNextFetch
  intro s x hw hr hx hpc hhi hlo
  obtain ⟨-, hstore, -⟩ := registersAreStored x s hw
  obtain ⟨t, ht, hread, -, htpc, -⟩ := hstore hr
  have hnext : t.pc.toNat = s.pc.toNat + 2 := by rw [htpc, toNat_add_two (by omega)]
  have hread0 : Memory.read t.mem t.pc.toNat = s.reg 0#4 := by
    rw [hnext, ← hhi]
    exact hread 0#4 (Nat.zero_le _)
  have hread1 : Memory.read t.mem (t.pc.toNat + 1) = s.reg 1#4 := by
    rw [hnext, ← hlo]
    exact hread 1#4 hx
  exact ⟨t, _, ht, fetch_eq_some.mpr ⟨by omega, rfl⟩, by rw [toNat_wordOfBytes, hread0, hread1]⟩

/-! ### 40_control_flow -/

/-- Settles O12: the entry the CALL wrote is the one the RET pops, and the pop is one less than the push. -/
theorem returnUndoesCall : Obligations.ReturnUndoesCall := by
  unfold Obligations.ReturnUndoesCall
  intro nnn s hv hb hroom
  refine ⟨_, exec_call_of_room hb hroom, fun r hstack hsp => ?_⟩
  have hlen : s.sp.toNat < s.stack.length := hb.1 ▸ hroom
  have hpushed : r.sp.toNat = s.sp.toNat + 1 := (congrArg BitVec.toNat hsp).trans (toNat_sp_add_one hv hroom)
  have htop : r.stack[r.sp.toNat - 1]? = some (s.pc + 2#16) := by
    rw [hstack, hpushed, Nat.add_sub_cancel]
    exact List.getElem?_set_self hlen
  refine ⟨_, exec_ret_of_top (by omega) htop, rfl, ?_, fun k hk => ?_⟩
  · simp only [hsp]
    exact BitVec.add_sub_cancel _ _
  · simp only [hstack]
    exact List.getElem?_set_ne hk.ne'

/-! ### 70_reset_and_hazards -/

/-- Settles O48: the zeroed fields of `alloc`, and the command, which is performed by it. -/
theorem powerOnState : Obligations.PowerOnState := by
  unfold Obligations.PowerOnState
  refine ⟨?_, rfl, fun s rest h => ?_⟩
  · rintro c s rfl
    exact ⟨fun _ => rfl, reg_of_v_replicate rfl, rfl, rfl, rfl, rfl, rfl, rfl, rfl, rfl, pixel_blank, rfl, rfl, rfl, rfl, rfl, rfl,
      rfl, rfl⟩
  · obtain ⟨-, hidle, -⟩ := id h
    exact step_of_finish (u := State.allocAgain { s with pending := rest }) h rfl hidle.symm

/-- Settles O60: each invariant at the zeroed state. -/
theorem resetMeetsTheInvariants : Obligations.ResetMeetsTheInvariants := by
  unfold Obligations.ResetMeetsTheInvariants
  exact ⟨rfl, rfl, ⟨rfl, by decide⟩, pcBounded_of_fresh rfl rfl, fun X Y _ => pixel_blank X Y, ⟨rfl, rfl, rfl⟩,
    countersBounded_of_anchored rfl rfl, fun hne => absurd rfl hne, fun hne => absurd rfl hne⟩

end Sys2Proof.Machine.Proofs
end
